-- ==== Sys2Proof/Word.lean ====
section
/-! DEFINITION. The words of the EJC-7410: what the manual sends, stores and compares as bits. -/

namespace Sys2Proof

/-- One byte of a frame, a page or the flash (R188). -/
abbrev Byte := BitVec 8

/-- The 16-bit name of a record (00, Table 2). -/
abbrev Tag := BitVec 16

/-- A generation or a sequence: a 32-bit unsigned number (00, Conventions). -/
abbrev Gen := BitVec 32

/-- The CRC-16 of a body, a counter value or an image header (00, Digest). -/
abbrev Crc := BitVec 16

/-- A set of ports: bit n stands for port n (R8, R188). -/
abbrev Writers := BitVec 4

/-- A set drawn from the six flags, bit 0 QUEUE to bit 5 LOADED (Table 10-2). -/
abbrev FlagSet := BitVec 6

/-- The number of a page inside the part, 0 to 1023 (chapter 2, section 2.1). -/
abbrev PageNo := Nat

end Sys2Proof
end

