-- ==== Sys2Proof/Config.lean ====
section
/-! DEFINITION. The fixed numbers of the part: capacities (00, Table 1), reset configuration
(Table 8-4) and timer values (Table 9-3). There is no free value: the manual leaves none. -/

namespace Sys2Proof.Config

/-- Directory slots (R4). -/
def directorySlots : Nat := 128
/-- Entries of the version table (R12). -/
def versionEntries : Nat := 256
/-- Pages of the pool (R23). -/
def poolPages : Nat := 1024
/-- Bytes of a page (R23). -/
def pageSize : Nat := 32
/-- Longest BLOB body (R6). -/
def maxBody : Nat := 2048
/-- Intents of a transaction (R63). -/
def maxIntents : Nat := 16
/-- Staged-owned pages of a port: the staging quota (R28). -/
def stagingQuota : Nat := 256
/-- Data bytes of one WRITE (R74). -/
def maxWrite : Nat := 64
/-- Tags of a watch list (R119). -/
def maxWatches : Nat := 16
/-- Entries of an event queue (R119). -/
def maxEvents : Nat := 8
/-- Where the lost count stops (R125). -/
def maxLost : Nat := 255

/-- Longest transaction idle timeout and hold timeout, in ms (Table 8-4). -/
def maxTimeout : Nat := 60000
/-- Shortest stall limit (Table 8-4). -/
def minStall : Nat := 10
/-- Longest stall limit (Table 8-4). -/
def maxStall : Nat := 250
/-- Transaction idle timeout after reset (Table 8-4). -/
def resetIdle : Nat := 1000
/-- Hold timeout after reset (Table 8-4). -/
def resetHold : Nat := 2000
/-- Stall limit after reset (Table 8-4). -/
def resetStall : Nat := 50

/-- Status poll timer, in ticks (R138). -/
def pollTicks : Nat := 400
/-- Erase timer, in ticks (R139). -/
def eraseTicks : Nat := 400
/-- Program timer, in ticks (R140). -/
def programTicks : Nat := 10

/-- Bytes of an image slot (R142). -/
def imageSlotSize : Nat := 65536
/-- Bytes of a flash sector (R142). -/
def sectorSize : Nat := 4096
/-- Sectors of an image slot (R142). -/
def sectors : Nat := 16
/-- Bytes of a program unit (R137). -/
def unitSize : Nat := 256

end Sys2Proof.Config
end

