-- ==== Sys2Proof/Syntax.lean ====
section
/-! DEFINITION. The commands of the EJC-7410: one constructor of `Instr` for each row of
spec/opcode_table.json. -/

namespace Sys2Proof

/-- The four host ports (00, Conventions). -/
inductive Port where
  | p0 | p1 | p2 | p3
deriving DecidableEq, Repr

/-- The number of a port, which is also its bit in a set of ports (R188). -/
def Port.index : Port → Nat
  | .p0 => 0
  | .p1 => 1
  | .p2 => 2
  | .p3 => 3

/-- All ports, in ascending number. -/
def Port.all : List Port := [.p0, .p1, .p2, .p3]

/-- The 24 requests of Table 10-3. -/
inductive Request where
  | deviceStatus | configure | portReset | flagClear
  | snapOpen | snapClose | stat | read | scan
  | beginTxn | create | write | resize | add | delete | commit | abort | txnStatus
  | watch | unwatch | eventPeek | eventAck
  | checkpoint | checkpointCancel
deriving DecidableEq, Repr

/-- What brings device reset about (R185): RESET_N held low, which does not reach the flash, or a loss
of power, which may cut off an operation running in the flash (R161). `left` is what the region of
the operation then holds, from its first byte on; `none` when it holds what it held before. -/
inductive ResetCause where
  | resetN
  | power (left : Option (List Byte))
deriving DecidableEq, Repr

/-- What the clock of a byte of an open frame has brought: an SCL edge inside a byte, which only reloads the stall
timer (R165), or the end of the byte, with what the row needs of it. -/
inductive Clocked (α : Type) where
  | edge
  | byte (x : α)
deriving DecidableEq, Repr

/-- The commands. The request rows carry the port whose write frame ends: the request's arguments are
the bytes its receive buffer holds (R168). The `left` and `received` operands of the flash rows are
`none` when the flash did, or the link delivered, what the operation is for, and otherwise the bytes
that the region holds or the link delivered (R141). -/
inductive Instr where
  /-- DEVICE_STATUS (R178) -/
  | deviceStatus (p : Port)
  /-- CONFIGURE (R176) -/
  | configure (p : Port)
  /-- PORT_RESET (R180) -/
  | portReset (p : Port)
  /-- FLAG_CLEAR (R131) -/
  | flagClear (p : Port)
  /-- SNAP_OPEN (R39) -/
  | snapOpen (p : Port)
  /-- SNAP_CLOSE (R40) -/
  | snapClose (p : Port)
  /-- STAT (R52) -/
  | stat (p : Port)
  /-- READ (R53) -/
  | read (p : Port)
  /-- SCAN (R56) -/
  | scan (p : Port)
  /-- BEGIN (R71) -/
  | beginTxn (p : Port)
  /-- CREATE (R72) -/
  | create (p : Port)
  /-- WRITE (R74) -/
  | write (p : Port)
  /-- RESIZE (R76) -/
  | resize (p : Port)
  /-- ADD (R77) -/
  | add (p : Port)
  /-- DELETE (R78) -/
  | delete (p : Port)
  /-- COMMIT (R80) -/
  | commit (p : Port)
  /-- ABORT (R83) -/
  | abort (p : Port)
  /-- TXN_STATUS (R90) -/
  | txnStatus (p : Port)
  /-- WATCH (R120) -/
  | watch (p : Port)
  /-- UNWATCH (R121) -/
  | unwatch (p : Port)
  /-- EVENT_PEEK (R127) -/
  | eventPeek (p : Port)
  /-- EVENT_ACK (R128) -/
  | eventAck (p : Port)
  /-- CHECKPOINT (R151) -/
  | checkpoint (p : Port)
  /-- CHECKPOINT_CANCEL (R159) -/
  | checkpointCancel (p : Port)
  /-- UNKNOWN_CODE_FRAME (R168) -/
  | unknownCodeFrame (p : Port)
  /-- EMPTY_WRITE_FRAME (R168) -/
  | emptyWriteFrame (p : Port)
  /-- WRITE_FRAME_START (R164): START or repeated START, seven address bits, direction 0 -/
  | writeFrameStart (p : Port) (address : BitVec 7)
  /-- READ_FRAME_START (R171): START or repeated START, seven address bits, direction 1 -/
  | readFrameStart (p : Port) (address : BitVec 7)
  /-- READ_FRAME_END (R174) -/
  | readFrameEnd (p : Port)
  /-- STALL_TIMER_EXPIRY (R165) -/
  | stallTimerExpiry (p : Port)
  /-- TICK (R186) -/
  | tick
  /-- HOLD_TIMER_EXPIRY (R42) -/
  | holdTimerExpiry (p : Port)
  /-- IDLE_TIMER_EXPIRY (R87) -/
  | idleTimerExpiry (p : Port)
  /-- TAKE (R97) -/
  | take
  /-- PAGE_DIGESTED (R105) -/
  | pageDigested
  /-- PUBLISH (R110) -/
  | publish
  /-- DEVICE_RESET (R185) -/
  | deviceReset (cause : ResetCause)
  /-- DEVICE_RESET_END (R185), with the strap levels ADR[2:0] and PRIV[3:0] -/
  | deviceResetEnd (adr : BitVec 3) (priv : BitVec 4)
  /-- STATUS_POLL_READY (R138); `left` for an operation left running that has ended -/
  | statusPollReady (left : Option (List Byte))
  /-- STATUS_POLL_TIMEOUT (R138) -/
  | statusPollTimeout
  /-- ERASE_DONE (R139) -/
  | eraseDone (left : Option (List Byte))
  /-- ERASE_TIMER_EXPIRY (R139) -/
  | eraseTimerExpiry
  /-- PROGRAM_DONE (R140) -/
  | programDone (left : Option (List Byte))
  /-- PROGRAM_TIMER_EXPIRY (R140) -/
  | programTimerExpiry
  /-- READBACK_DONE (R141) -/
  | readbackDone (received : Option (List Byte))
  /-- LOAD_HEADERS_READ (R146) -/
  | loadHeadersRead
  /-- LOAD_ENTRY_CHECKED (R147) -/
  | loadEntryChecked
  /-- LOAD_ENTRY_INSTALLED (R148) -/
  | loadEntryInstalled
  /-- DATA_BYTE_RECEIVED (R166): the byte, or an SCL edge inside it -/
  | dataByteReceived (p : Port) (b : Clocked Byte)
  /-- BYTE_CLOCKED_OUT (R173): whether the host acknowledged the byte, or an SCL edge inside it -/
  | byteClockedOut (p : Port) (acknowledged : Clocked Bool)
deriving DecidableEq, Repr

end Sys2Proof
end

