-- ==== Sys2Proof/WellFormed.lean ====
section
/-! DEFINITION. Well-formedness of commands: what the flash holds or delivers has the size of the
region it stands for. Every other operand is well formed by its type. -/

namespace Sys2Proof

/-- A region's contents have exactly the region's size, when they are given. -/
def regionOk (size : Nat) : Option (List Byte) → Bool
  | none => true
  | some bs => bs.length == size

/-- The contents left by an operation that may be an erase (4096 bytes) or a program (256 bytes). -/
def anyRegionOk (left : Option (List Byte)) : Bool :=
  regionOk Config.sectorSize left || regionOk Config.unitSize left

/-- Well-formed commands. -/
def Instr.wf : Instr → Bool
  | .deviceReset (.power left) => anyRegionOk left
  | .statusPollReady left => anyRegionOk left
  | .eraseDone left => regionOk Config.sectorSize left
  | .programDone left => regionOk Config.unitSize left
  | .readbackDone received => regionOk Config.unitSize received
  | .deviceReset .resetN => true
  | .deviceStatus _ | .configure _ | .portReset _ | .flagClear _ => true
  | .snapOpen _ | .snapClose _ | .stat _ | .read _ | .scan _ => true
  | .beginTxn _ | .create _ | .write _ | .resize _ | .add _ | .delete _ => true
  | .commit _ | .abort _ | .txnStatus _ => true
  | .watch _ | .unwatch _ | .eventPeek _ | .eventAck _ => true
  | .checkpoint _ | .checkpointCancel _ => true
  | .unknownCodeFrame _ | .emptyWriteFrame _ => true
  | .writeFrameStart _ _ | .readFrameStart _ _ | .readFrameEnd _ | .stallTimerExpiry _ => true
  | .tick | .holdTimerExpiry _ | .idleTimerExpiry _ => true
  | .take | .pageDigested | .publish => true
  | .deviceResetEnd _ _ => true
  | .statusPollTimeout | .eraseTimerExpiry | .programTimerExpiry => true
  | .loadHeadersRead | .loadEntryChecked | .loadEntryInstalled => true
  | .dataByteReceived _ _ | .byteClockedOut _ _ => true

end Sys2Proof
end

