-- ==== Sys2Proof/Decode.lean ====
section
/-! DEFINITION. Decoding. No row of the opcode table gives bits, so `decodeTableWord` answers none for
every word. What the part itself decodes is the receive buffer of a write frame: its request code and
its declared length (R166, R167, R189, Table 10-3). -/

namespace Sys2Proof

/-- The command that a word spells by the table's bits: no row gives bits, so none. -/
def decodeTableWord (_nbits _w : Nat) : Option Instr := none

/-- The code byte of a request (Table 10-3). -/
def requestCode : Request → Byte
  | .deviceStatus => 0x01#8
  | .configure => 0x02#8
  | .portReset => 0x03#8
  | .flagClear => 0x04#8
  | .snapOpen => 0x10#8
  | .snapClose => 0x11#8
  | .stat => 0x12#8
  | .read => 0x13#8
  | .scan => 0x14#8
  | .beginTxn => 0x20#8
  | .create => 0x21#8
  | .write => 0x22#8
  | .resize => 0x23#8
  | .add => 0x24#8
  | .delete => 0x25#8
  | .commit => 0x26#8
  | .abort => 0x27#8
  | .txnStatus => 0x28#8
  | .watch => 0x30#8
  | .unwatch => 0x31#8
  | .eventPeek => 0x32#8
  | .eventAck => 0x33#8
  | .checkpoint => 0x40#8
  | .checkpointCancel => 0x41#8

/-- Every request, in the order of Table 10-3. -/
def allRequests : List Request :=
  [.deviceStatus, .configure, .portReset, .flagClear, .snapOpen, .snapClose, .stat, .read, .scan,
   .beginTxn, .create, .write, .resize, .add, .delete, .commit, .abort, .txnStatus,
   .watch, .unwatch, .eventPeek, .eventAck, .checkpoint, .checkpointCancel]

/-- The request that a code byte names, or none for a code that names no request (R168). -/
def requestOfCode (c : Byte) : Option Request :=
  allRequests.find? (fun r => requestCode r == c)

/-- The bytes of a request's code and fixed fields (the last column of Table 10-3; for WRITE, 6). -/
def fixedLength : Request → Nat
  | .deviceStatus | .portReset | .snapOpen | .snapClose | .beginTxn | .commit | .abort => 1
  | .txnStatus | .eventPeek | .checkpoint | .checkpointCancel => 1
  | .flagClear | .eventAck => 2
  | .stat | .scan | .delete | .watch | .unwatch => 3
  | .read | .resize => 5
  | .create | .write => 6
  | .configure | .add => 7

/-- The data bytes that WRITE's count field adds to its declared length: a count of 1 to 64, once it
has arrived at offset 5, and nothing otherwise (R167). -/
def writeGrowth (buffer : List Byte) : Nat :=
  match buffer[5]? with
  | none => 0
  | some n => if 1 ≤ n.toNat ∧ n.toNat ≤ Config.maxWrite then n.toNat else 0

/-- The declared length of the write frame whose received bytes are `buffer` (R166, R167, R189). Until
the code has arrived the port takes one byte, and a code that names no request has length 1. -/
def declaredLength (buffer : List Byte) : Nat :=
  match buffer with
  | [] => 1
  | c :: _ =>
    match requestOfCode c with
    | none => 1
    | some .write => fixedLength .write + writeGrowth buffer
    | some r => fixedLength r

end Sys2Proof
end

