-- ==== Sys2Proof/Machine/State.lean ====
section
/-! DEFINITION. The state of the EJC-7410 as plain data, block by block, and its value while device
reset is in force. -/

namespace Sys2Proof.Machine

/-! ### Shared shapes -/

/-- One value for each port. -/
@[ext] structure PortMap (α : Type) where
  p0 : α
  p1 : α
  p2 : α
  p3 : α
deriving DecidableEq, Repr

/-- The same value for every port. -/
def PortMap.same {α : Type} (x : α) : PortMap α := ⟨x, x, x, x⟩

/-- A timer (R187): stopped, or the ticks left. `some 0` is a timer whose last tick has been given and
whose expiry, a happening of its owner, is due. -/
abbrev Timer := Option Nat

/-- A memory of bytes: address and byte pairs, addresses strictly rising, no entry equal to what an
unlisted address reads as. -/
abbrev Memory := List Host.Cell

/-! ### Record directory (chapter 1) -/

/-- The persist attribute (R9). -/
inductive Persist where
  | persistent | volatile
deriving DecidableEq, Repr

/-- The kind of a record. -/
inductive Kind where
  | blob | counter
deriving DecidableEq, Repr

/-- The attributes that a version carries beside its kind (Table 1-1). -/
structure Attrs where
  writers : Writers
  persist : Persist
deriving DecidableEq, Repr

/-- What a version holds (Table 1-1): a BLOB (R6), a COUNTER (R7) or a tombstone (R11). -/
inductive Content where
  | blob (attrs : Attrs) (length : Nat) (pages : List PageNo) (crc : Crc)
  | counter (attrs : Attrs) (value : BitVec 32) (crc : Crc)
  | tombstone
deriving DecidableEq, Repr

/-- One version: its generation and contents (R5). The older link is the next place of the chain. -/
structure Version where
  gen : Gen
  content : Content
deriving DecidableEq, Repr

/-- An occupied directory slot: a tag and its chain, newest version first (R2, R13). -/
structure DirSlot where
  tag : Tag
  chain : List Version
deriving DecidableEq, Repr

/-! ### Page pool (chapter 2) -/

/-- The page pool: the bytes of the pages (page n at 32 × n), a reference count for each page (unlisted:
0), the free list, head first, and the staged-owned count of each port (Figure 2-1). -/
@[ext] structure Pool where
  bytes : Memory
  refs : List (Nat × Nat)
  free : List PageNo
  stagedOwned : PortMap Nat
deriving DecidableEq, Repr

/-! ### Snapshot table (chapter 3) -/

/-- The state of a port's snapshot slot (Table 3-1). -/
inductive SlotState where
  | free
  | held (gen : Gen)
  | frame (gen : Gen)
  | lapsed
deriving DecidableEq, Repr

/-- A port's snapshot slot (R38). -/
@[ext] structure Snap where
  state : SlotState
  hold : Timer
  lapsePending : Bool
deriving DecidableEq, Repr

/-! ### Transaction unit (chapter 4) -/

/-- A page of a staged body, and whether it is staged-owned (R28). -/
structure StagedPage where
  page : PageNo
  owned : Bool
deriving DecidableEq, Repr

/-- A staged body (R26). -/
structure StagedBody where
  length : Nat
  pages : List StagedPage
deriving DecidableEq, Repr

/-- What a CREATED entry stages: a BLOB, with a staged body once a WRITE or RESIZE has named it, or a
COUNTER with its delta (R64). -/
inductive CreatedAs where
  | blob (body : Option StagedBody)
  | counter (delta : Int)
deriving DecidableEq, Repr

/-- The operation of an intent with the fields it carries (Table 4-3). -/
inductive IntentOp where
  | created (attrs : Attrs) (as : CreatedAs)
  | written (base : Gen) (body : StagedBody)
  | added (base : Gen) (delta : Int)
  | deleted (base : Gen)
deriving DecidableEq, Repr

/-- An entry of an intent list (R64). -/
structure Intent where
  tag : Tag
  op : IntentOp
deriving DecidableEq, Repr

/-- Transaction context states (Table 4-1). -/
inductive CtxState where
  | none | opened | queued | applying | detached
deriving DecidableEq, Repr

/-- Why the last staging request was refused NOSPACE (R68). -/
inductive StagingDetail where
  | none | pages | quota
deriving DecidableEq, Repr

/-- The detail of a CONFLICT (R89). -/
inductive ConflictDetail where
  | changed | alreadyExists | gone
deriving DecidableEq, Repr

/-- The detail of a NOSPACE outcome (R89). -/
inductive SpaceDetail where
  | versions | slots
deriving DecidableEq, Repr

/-- The outcome record with the fields each outcome carries (Table 4-9). -/
inductive TxnOutcome where
  | none
  | committed (gen : Gen)
  | conflict (tag : Tag) (detail : ConflictDetail)
  | noSpace (detail : SpaceDetail)
  | withdrawn
  | aborted
  | timedOut
  | exhausted
deriving DecidableEq, Repr

/-- The outcome by its name alone (Table 4-9): what an event carries. -/
inductive OutcomeName where
  | none | committed | conflict | noSpace | withdrawn | aborted | timedOut | exhausted
deriving DecidableEq, Repr

/-- A port's transaction context (R62). -/
@[ext] structure Context where
  state : CtxState
  intents : List Intent
  idle : Timer
  refusal : StagingDetail
  outcome : TxnOutcome
deriving DecidableEq, Repr

/-! ### Commit engine (chapter 5) -/

/-- A body being digested: its record's tag, the pages and bytes not yet fed, the running CRC (R105). -/
structure Digest where
  tag : Tag
  pages : List PageNo
  bytesLeft : Nat
  crc : Crc
deriving DecidableEq, Repr

/-- The commit in progress (Figure 5-1). -/
structure Commit where
  port : Port
  reservedEntries : Nat
  reservedSlots : Nat
  todo : List Digest
  done : List (Tag × Crc)
deriving DecidableEq, Repr

/-- The engine state (R96). -/
inductive Engine where
  | idle
  | digesting (commit : Commit)
deriving DecidableEq, Repr

/-! ### Notification unit (chapter 6) -/

/-- Event kinds (Table 6-3). -/
inductive EventKind where
  | changed | created | deleted | commitDone | txnTimeout | snapLapsed | imageDone
deriving DecidableEq, Repr

/-- Why a checkpoint failed (R136). -/
inductive Cause where
  | eraseTimeout | programTimeout | verify
deriving DecidableEq, Repr

/-- The result of a checkpoint (Table 7-10). -/
inductive ImageResult where
  | saved
  | cancelled
  | failed (cause : Cause)
deriving DecidableEq, Repr

/-- The detail of an event: 0, the outcome of COMMIT_DONE and TXN_TIMEOUT, or the image result of
IMAGE_DONE (R123). -/
inductive EventDetail where
  | zero
  | outcome (o : OutcomeName)
  | image (r : ImageResult)
deriving DecidableEq, Repr

/-- An event queue entry (R123). -/
structure Event where
  kind : EventKind
  tag : Tag
  gen : Gen
  detail : EventDetail
deriving DecidableEq, Repr

/-- The notification state of a port (Table 6-1) with its ATTN line (R133; `true` is driven low). -/
@[ext] structure Notify where
  watches : List Tag
  queue : List Event
  lost : Nat
  flags : FlagSet
  mask : FlagSet
  attnLow : Bool
deriving DecidableEq, Repr

/-! ### Port interface (chapter 8) -/

/-- Result codes (Table 10-1). `atEnd` is END, `absent` NONE, `alreadyExists` EXISTS, `wrongKind` KIND. -/
inductive Result where
  | ok | queued | idle | atEnd
  | notReady | malformed | unknown
  | absent | alreadyExists | denied | wrongKind | range | deleted
  | noTxn | txnOpen | busy | tooLate | limit | noSpace
  | lapsed | exhausted
deriving DecidableEq, Repr

/-- The reply buffer (R170). -/
structure Reply where
  result : Result
  code : Byte
  gen : Gen
  payload : List Byte
deriving DecidableEq, Repr

/-- The stream cursor (R49): none, READ's tag and offset, or SCAN's tag position. -/
inductive Stream where
  | closed
  | read (tag : Tag) (offset : Nat)
  | scan (position : Tag)
deriving DecidableEq, Repr

/-- What a read frame sends: the reply buffer, or a stream with the result and the view generation
fixed at its start; the generation is 0 with LAPSED (R171, R173). -/
inductive FrameSource where
  | buffered
  | streaming (result : Result) (view : Gen)
deriving DecidableEq, Repr

/-- A read frame in progress: what it sends, how many bytes have been sent, and whether the host has
left one unacknowledged, after which the port sends nothing (R173). -/
structure ReadFrame where
  source : FrameSource
  sent : Nat
  silent : Bool
deriving DecidableEq, Repr

/-- Port frame states (Table 8-1), each open frame with the stall limit in force at its start (R165). -/
inductive Frame where
  | idle
  | receiving (limit : Nat) (buffer : List Byte)
  | sending (limit : Nat) (frame : ReadFrame)
deriving DecidableEq, Repr

/-- SDA as the port last drove it, byte by byte. -/
inductive BusOut where
  | released
  | acknowledged
  | notAcknowledged
  | sent (b : Byte)
deriving DecidableEq, Repr

/-- The configuration (Table 8-4) but for the attention mask, which `Notify.mask` holds. -/
structure PortConfig where
  idleTimeout : Nat
  holdTimeout : Nat
  stallLimit : Nat
deriving DecidableEq, Repr

/-- A port interface (Figure 8-1). -/
@[ext] structure Iface where
  frame : Frame
  stall : Timer
  bus : BusOut
  reply : Reply
  stream : Stream
  config : PortConfig
deriving DecidableEq, Repr

/-! ### Image controller and flash (chapter 7) -/

/-- The two image slots (R142). -/
inductive ImageSlot where
  | slot0 | slot1
deriving DecidableEq, Repr

/-- The device state (R136). -/
inductive DeviceState where
  | loading | ready
deriving DecidableEq, Repr

/-- The detail of a load that ended EMPTY (R150). -/
inductive EmptyDetail where
  | noImage | rejected
deriving DecidableEq, Repr

/-- The load result (R150). -/
inductive LoadResult where
  | none
  | loaded
  | stoppedPartial
  | empty (detail : EmptyDetail)
deriving DecidableEq, Repr

/-- The fields of an image header (R143). -/
structure ImageHeader where
  sequence : Gen
  gen : Gen
  records : Nat
  bodyBytes : Nat
deriving DecidableEq, Repr

/-- Where a pass of the load stands in a slot: the slot and its header, the valid slots still to try,
the entries passed, the slot offset of the next entry, the tag of the last entry and the sum of the
lengths so far (R146, R147). -/
structure LoadCursor where
  slot : ImageSlot
  header : ImageHeader
  others : List (ImageSlot × ImageHeader)
  index : Nat
  offset : Nat
  lastTag : Option Tag
  sum : Nat
deriving DecidableEq, Repr

/-- The load's phase: not loading, the poll of the header unit of slot 0, the read of that unit and then the
poll and the read of the header unit of slot 1 (R146), check pass (R147), install pass (R148). -/
inductive Loader where
  | idle
  | header0
  | header1
  | checking (cursor : LoadCursor)
  | installing (cursor : LoadCursor)
deriving DecidableEq, Repr

/-- The checkpoint stage with its cursor (R136): ERASING a sector, WRITING a stream unit with the
directory tag position, SEALING. Stage NONE is the absence of a checkpoint. -/
inductive Stage where
  | erasing (sector : Nat)
  | writing (unitNo : Nat) (position : Tag)
  | sealing
deriving DecidableEq, Repr

/-- A checkpoint in progress: stage, target and image totals (R136). -/
structure Checkpoint where
  stage : Stage
  target : ImageSlot
  records : Nat
  bodyBytes : Nat
deriving DecidableEq, Repr

/-- The operation that follows a status poll (R138). -/
inductive AfterPoll where
  | erase
  | program
  | readback (addr : Nat) (data : List Byte)
  | loadRead
deriving DecidableEq, Repr

/-- The flash operation in progress on the link with its timer (R136, R138 to R141). -/
inductive FlashOp where
  | none
  | poll (next : AfterPoll) (timer : Timer)
  | erase (addr : Nat) (timer : Timer)
  | program (addr : Nat) (data : List Byte) (timer : Timer)
  | readback (addr : Nat) (data : List Byte)
  | loadRead
deriving DecidableEq, Repr

/-- The image controller (Table 7-1). -/
@[ext] structure Image where
  device : DeviceState
  load : LoadResult
  loader : Loader
  current : Option ImageSlot
  sequence : Gen
  checkpoint : Option Checkpoint
  last : Option ImageResult
  op : FlashOp
deriving DecidableEq, Repr

/-- An operation running inside the flash (R139, R140). -/
inductive FlashRun where
  | erase (addr : Nat)
  | program (addr : Nat) (data : List Byte)
deriving DecidableEq, Repr

/-- The external flash as the link sees it: its array (unlisted addresses read 0xFF, erased) and the
operation running inside it (R137, R138). -/
@[ext] structure Flash where
  mem : Memory
  running : Option FlashRun
deriving DecidableEq, Repr

/-! ### The whole machine -/

/-- The state of the EJC-7410 with its flash, and the queue of waiting commands. -/
@[ext]
structure State where
  /-- device reset is in force (R185) -/
  inReset : Bool
  /-- the sampled ADR strap (R184) -/
  adr : BitVec 3
  /-- the sampled PRIV strap (R184) -/
  priv : BitVec 4
  /-- port interfaces (chapter 8) -/
  ifaces : PortMap Iface
  /-- snapshot slots 0 to 3 (chapter 3) -/
  snaps : PortMap Snap
  /-- snapshot slot 4: the generation while HELD (R59) -/
  slot4 : Option Gen
  /-- the generation count G (R15) -/
  g : Gen
  /-- occupied directory slots, in ascending tag order (chapter 1) -/
  directory : List DirSlot
  /-- page pool (chapter 2) -/
  pool : Pool
  /-- transaction contexts (chapter 4) -/
  txns : PortMap Context
  /-- commit queue, head first (R93) -/
  commitQueue : List Port
  /-- commit engine (R96) -/
  engine : Engine
  /-- notification unit (chapter 6) -/
  notes : PortMap Notify
  /-- image controller (chapter 7) -/
  image : Image
  /-- the external flash (R137) -/
  flash : Flash
  /-- the model's own field: the commands that are waiting, first in first out -/
  pending : List Instr
deriving DecidableEq, Repr

/-- Nothing stops the part: it has no fault. What goes wrong is answered in a reply, an outcome, an event
or a checkpoint result. -/
inductive Fault where
deriving DecidableEq, Repr

/-- Why a command has no meaning. -/
inductive Refusal where
  /-- raised by `exec` for a command that is not modelled yet; safe. No arm raises it. -/
  | notModelled (mnemonic : String)
deriving DecidableEq, Repr

/-- The outcomes of a step of this machine. -/
abbrev Out := Host.Outcome State Fault Refusal

/-! ### Device-reset values -/

/-- The reply buffer after device reset (R170). -/
def Reply.afterReset : Reply := ⟨.idle, 0x00#8, 0#32, []⟩

/-- The configuration after reset (Table 8-4). -/
def PortConfig.afterReset : PortConfig := ⟨Config.resetIdle, Config.resetHold, Config.resetStall⟩

/-- A port interface after device reset (R183). -/
def Iface.afterReset : Iface :=
  ⟨.idle, none, .released, Reply.afterReset, .closed, PortConfig.afterReset⟩

/-- A snapshot slot after reset (R60, R61). -/
def Snap.afterReset : Snap := ⟨.free, none, false⟩

/-- A transaction context after device reset (R91). -/
def Context.afterReset : Context := ⟨.none, [], none, .none, .none⟩

/-- A port's notification state after reset (R134, R135). -/
def Notify.afterReset : Notify := ⟨[], [], 0, 0#6, 0#6, false⟩

/-- The page pool after device reset (R37). -/
def Pool.afterReset : Pool := ⟨[], [], List.range Config.poolPages, PortMap.same 0⟩

/-- The image controller after device reset (Table 7-1). -/
def Image.afterReset : Image := ⟨.loading, .none, .idle, none, 0#32, none, none, .none⟩

/-- The machine in device reset, before DEVICE_RESET_END: every block at its device-reset values
(R185), an erased flash with nothing running (log entry 4), no command waiting. -/
def State.reset : State where
  inReset := true
  adr := 0#3
  priv := 0#4
  ifaces := PortMap.same Iface.afterReset
  snaps := PortMap.same Snap.afterReset
  slot4 := none
  g := 1#32
  directory := []
  pool := Pool.afterReset
  txns := PortMap.same Context.afterReset
  commitQueue := []
  engine := .idle
  notes := PortMap.same Notify.afterReset
  image := Image.afterReset
  flash := ⟨[], none⟩
  pending := []

end Sys2Proof.Machine
end

