-- ==== Sys2Proof/Machine/Ops.lean ====
section
/-! DEFINITION. The named operations that every block uses: bytes and the CRC, memories in canonical
form, values per port, timers, and the setters of State. -/

namespace Sys2Proof.Machine

/-! ### Bytes (R188: most significant byte first) -/

/-- The two bytes of a 16-bit field. -/
def be16 (v : BitVec 16) : List Byte := [v.extractLsb' 8 8, v.extractLsb' 0 8]

/-- The four bytes of a 32-bit field. -/
def be32 (v : BitVec 32) : List Byte :=
  [v.extractLsb' 24 8, v.extractLsb' 16 8, v.extractLsb' 8 8, v.extractLsb' 0 8]

/-- A 16-bit field that holds a count. -/
def natBe16 (n : Nat) : List Byte := be16 (BitVec.ofNat 16 n)

/-- A one-byte field that holds a count. -/
def natByte (n : Nat) : Byte := BitVec.ofNat 8 n

/-- The number that bytes spell, most significant first. -/
def fromBe (bs : List Byte) : Nat := bs.foldl (fun n b => n * 256 + b.toNat) 0

/-- The field of `size` bytes at an offset of `bs`, as a number. -/
def fieldAt (bs : List Byte) (offset size : Nat) : Nat := fromBe ((bs.drop offset).take size)

/-! ### CRC-16 (00, Digest: polynomial 0x1021, start 0xFFFF, most significant bit first, no inversion) -/

/-- The register after one bit. -/
def crcBit (crc : Crc) : Crc := if crc.msb then (crc <<< 1) ^^^ 0x1021#16 else crc <<< 1

/-- The register after one byte. -/
def crcByte (crc : Crc) (b : Byte) : Crc :=
  let x := crc ^^^ (b.setWidth 16 <<< 8)
  crcBit (crcBit (crcBit (crcBit (crcBit (crcBit (crcBit (crcBit x)))))))

/-- The register after bytes, from a running value. -/
def crcFeed (crc : Crc) (bs : List Byte) : Crc := bs.foldl crcByte crc

/-- The starting value of the register, which is also the CRC of an empty body. -/
def crcStart : Crc := 0xFFFF#16

/-- The CRC-16 of a body. -/
def crc16 (bs : List Byte) : Crc := crcFeed crcStart bs

/-! ### Memories: address and value pairs in canonical form, `d` being what an unlisted address reads as -/

/-- What an address reads as. -/
def cellRead {β : Type} (d : β) : List (Nat × β) → Nat → β
  | [], _ => d
  | (k, v) :: rest, a => if k = a then v else cellRead d rest a

/-- Writing an address: the entry stands in its place, or is gone when the value is `d`. -/
def cellWrite {β : Type} [DecidableEq β] (d : β) : List (Nat × β) → Nat → β → List (Nat × β)
  | [], a, v => if v = d then [] else [(a, v)]
  | (k, w) :: rest, a, v =>
    if a < k then (if v = d then (k, w) :: rest else (a, v) :: (k, w) :: rest)
    else if a = k then (if v = d then rest else (a, v) :: rest)
    else (k, w) :: cellWrite d rest a v

/-- The canonical form: addresses strictly rising from `low` on, no entry equal to `d`. -/
def cellsWfFrom {β : Type} [DecidableEq β] (d : β) : Nat → List (Nat × β) → Bool
  | _, [] => true
  | low, (k, v) :: rest => decide (low ≤ k) && decide (v ≠ d) && cellsWfFrom d (k + 1) rest

/-- The canonical form of a memory. -/
def cellsWf {β : Type} [DecidableEq β] (d : β) (m : List (Nat × β)) : Bool := cellsWfFrom d 0 m

/-- The `n` bytes of a memory from an address on. -/
def readBlock (d : Byte) (m : Memory) (a n : Nat) : List Byte :=
  (List.range n).map (fun i => cellRead d m (a + i))

/-- Writing bytes from an address on. -/
def writeBlock (d : Byte) (m : Memory) (a : Nat) : List Byte → Memory
  | [] => m
  | b :: bs => writeBlock d (cellWrite d m a b) (a + 1) bs

/-- The canonical form of a memory of bytes, as the manual's memories are held. -/
def Memory.wf (d : Byte) (m : Memory) : Bool := cellsWf d m

/-! ### Values per port -/

/-- The value of a port. -/
def PortMap.get {α : Type} (m : PortMap α) : Port → α
  | .p0 => m.p0
  | .p1 => m.p1
  | .p2 => m.p2
  | .p3 => m.p3

/-- Another value for one port. -/
def PortMap.set {α : Type} (m : PortMap α) (p : Port) (x : α) : PortMap α :=
  match p with
  | .p0 => { m with p0 := x }
  | .p1 => { m with p1 := x }
  | .p2 => { m with p2 := x }
  | .p3 => { m with p3 := x }

/-- A function of the port and its value, at every port. -/
def PortMap.mapPorts {α β : Type} (f : Port → α → β) (m : PortMap α) : PortMap β :=
  ⟨f .p0 m.p0, f .p1 m.p1, f .p2 m.p2, f .p3 m.p3⟩

/-! ### Timers (R187) -/

/-- A load with N: running for N ticks, or stopped for 0. -/
def Timer.load (n : Nat) : Timer := if n = 0 then none else some n

/-- One tick: a running timer has one tick fewer left; a due one stays due. -/
def Timer.tick : Timer → Timer
  | some (n + 1) => some n
  | some 0 => some 0
  | none => none

/-- The timer's last tick has been given: its expiry is due. -/
def Timer.due (t : Timer) : Bool := t == some 0

/-! ### Setters of State, one port's part at a time -/

/-- Another port interface for one port. -/
def State.setIface (s : State) (p : Port) (x : Iface) : State := { s with ifaces := s.ifaces.set p x }

/-- Another snapshot slot for one port. -/
def State.setSnap (s : State) (p : Port) (x : Snap) : State := { s with snaps := s.snaps.set p x }

/-- Another transaction context for one port. -/
def State.setTxn (s : State) (p : Port) (x : Context) : State := { s with txns := s.txns.set p x }

/-- Another notification state for one port. -/
def State.setNote (s : State) (p : Port) (x : Notify) : State := { s with notes := s.notes.set p x }

/-- Port p is privileged: its PRIV strap read high (R184). -/
def privileged (s : State) (p : Port) : Bool := s.priv.getLsbD p.index

/-- The device is LOADING (R136). -/
def loading (s : State) : Bool := s.image.device == .loading

end Sys2Proof.Machine
end

