-- ==== Sys2Proof/Machine/Flags.lean ====
section
/-! DEFINITION. The six flags, the arrival of events and the attention line (chapter 6). -/

namespace Sys2Proof.Machine

/-- QUEUE, bit 0 (Table 10-2). -/
def flagQueue : FlagSet := 0x01#6
/-- OVERFLOW, bit 1. -/
def flagOverflow : FlagSet := 0x02#6
/-- TXN_ENDED, bit 2. -/
def flagTxnEnded : FlagSet := 0x04#6
/-- LAPSED, bit 3. -/
def flagLapsed : FlagSet := 0x08#6
/-- IMAGE, bit 4. -/
def flagImage : FlagSet := 0x10#6
/-- LOADED, bit 5. -/
def flagLoaded : FlagSet := 0x20#6

/-- A flag set byte of a request names only flags the part defines: bits 6 and 7 clear (R188). -/
def flagByteOk (b : Byte) : Bool := b &&& 0xC0#8 == 0#8

/-- The flag set of a byte. -/
def flagsOfByte (b : Byte) : FlagSet := b.setWidth 6

/-- The byte of a flag set, bits 6 and 7 sent as 0 (R188). -/
def byteOfFlags (f : FlagSet) : Byte := f.setWidth 8

/-- The QUEUE flag follows the queue (R130), and the line follows flags and mask (R133). -/
def Notify.settle (n : Notify) : Notify :=
  let flags := if n.queue.isEmpty then n.flags &&& ~~~flagQueue else n.flags ||| flagQueue
  { n with flags := flags, attnLow := flags &&& n.mask != 0#6 }

/-- Two events coalesce when their kind and tag agree (R124). -/
def Event.sameAs (e x : Event) : Bool := x.kind == e.kind && x.tag == e.tag

/-- The queued entry after an arrival of its kind and tag: the arrival's generation and detail (R124). -/
def Event.coalesce (e x : Event) : Event := if e.sameAs x then { x with gen := e.gen, detail := e.detail } else x

/-- An arrival: it coalesces (R124), joins the tail, or is dropped (R125). -/
def Notify.arrive (n : Notify) (e : Event) : Notify :=
  if n.queue.any e.sameAs then
    Notify.settle { n with queue := n.queue.map e.coalesce }
  else if n.queue.length < Config.maxEvents then
    Notify.settle { n with queue := n.queue ++ [e] }
  else
    Notify.settle { n with
      lost := if n.lost < Config.maxLost then n.lost + 1 else Config.maxLost
      flags := n.flags ||| flagOverflow }

/-- A producer's flag (R129). -/
def Notify.raise (n : Notify) (f : FlagSet) : Notify := Notify.settle { n with flags := n.flags ||| f }

/-- FLAG_CLEAR of a set (R131): QUEUE stays, and OVERFLOW named zeroes the lost count. -/
def Notify.clear (n : Notify) (f : FlagSet) : Notify :=
  Notify.settle { n with
    flags := n.flags &&& ~~~(f &&& ~~~flagQueue)
    lost := if f &&& flagOverflow = 0#6 then n.lost else 0 }

/-- EVENT_ACK of n entries (R128). -/
def Notify.acknowledge (n : Notify) (count : Nat) : Notify :=
  Notify.settle { n with queue := n.queue.drop count }

/-- A new attention mask (R132). -/
def Notify.withMask (n : Notify) (mask : FlagSet) : Notify := Notify.settle { n with mask := mask }

/-- An event and then a flag handed to one port (R126, R129). -/
def deliver (p : Port) (e : Event) (f : FlagSet) (s : State) : State :=
  s.setNote p (((s.notes.get p).arrive e).raise f)

/-- A record event handed to every port that watches its tag (R115, R122). -/
def deliverRecordEvent (e : Event) (s : State) : State :=
  { s with notes := s.notes.mapPorts (fun _ n => if e.tag ∈ n.watches then n.arrive e else n) }

end Sys2Proof.Machine
end

