-- ==== Sys2Proof/Machine/Operands.lean ====
section
/-! DEFINITION. The byte layouts of chapter 10: the codes of enumerated fields (Tables 10-1 and 10-2),
the argument fields of request frames (Table 10-3), and the entries (Tables 10-9, 10-10, 10-12). -/

namespace Sys2Proof.Machine

/-! ### Codes -/

/-- Result codes (Table 10-1). -/
def Result.code : Result → Byte
  | .ok => 0x00#8
  | .queued => 0x01#8
  | .idle => 0x02#8
  | .atEnd => 0x03#8
  | .notReady => 0x10#8
  | .malformed => 0x11#8
  | .unknown => 0x12#8
  | .absent => 0x20#8
  | .alreadyExists => 0x21#8
  | .denied => 0x22#8
  | .wrongKind => 0x23#8
  | .range => 0x24#8
  | .deleted => 0x25#8
  | .noTxn => 0x30#8
  | .txnOpen => 0x31#8
  | .busy => 0x32#8
  | .tooLate => 0x33#8
  | .limit => 0x34#8
  | .noSpace => 0x35#8
  | .lapsed => 0x40#8
  | .exhausted => 0x41#8

/-- The kind code (Table 10-2). -/
def Kind.code : Kind → Byte
  | .blob => 0x01#8
  | .counter => 0x02#8

/-- The kind that a code names. -/
def Kind.ofCode (b : Byte) : Option Kind :=
  if b = 0x01#8 then some .blob else if b = 0x02#8 then some .counter else none

/-- The persist code (Table 10-2). -/
def Persist.code : Persist → Byte
  | .persistent => 0x01#8
  | .volatile => 0x02#8

/-- The persist attribute that a code names. -/
def Persist.ofCode (b : Byte) : Option Persist :=
  if b = 0x01#8 then some .persistent else if b = 0x02#8 then some .volatile else none

/-- A writers byte: bit n for port n, the other bits 0 (R188). -/
def byteOfWriters (w : Writers) : Byte := w.setWidth 8

/-- The writers that a byte names, or none when a bit that stands for no port is set. -/
def writersOfByte (b : Byte) : Option Writers := if b &&& 0xF0#8 = 0#8 then some (b.setWidth 4) else none

/-- The attributes byte: the kind code above the persist code (Table 10-2). -/
def attributesByte (k : Kind) (q : Persist) : Byte := (k.code <<< 4) ||| q.code

/-- The snapshot slot state code. A port's slot is never FRAME when a request is taken (R38), so FRAME
has no code in Table 10-2; the model gives it HELD's. -/
def SlotState.code : SlotState → Byte
  | .free => 0x00#8
  | .held _ | .frame _ => 0x01#8
  | .lapsed => 0x02#8

/-- The transaction context state code. -/
def CtxState.code : CtxState → Byte
  | .none => 0x00#8
  | .opened => 0x01#8
  | .queued => 0x02#8
  | .applying => 0x03#8
  | .detached => 0x04#8

/-- The name of an outcome. -/
def TxnOutcome.name : TxnOutcome → OutcomeName
  | .none => .none
  | .committed _ => .committed
  | .conflict _ _ => .conflict
  | .noSpace _ => .noSpace
  | .withdrawn => .withdrawn
  | .aborted => .aborted
  | .timedOut => .timedOut
  | .exhausted => .exhausted

/-- The outcome code. -/
def OutcomeName.code : OutcomeName → Byte
  | .none => 0x00#8
  | .committed => 0x01#8
  | .conflict => 0x02#8
  | .noSpace => 0x03#8
  | .withdrawn => 0x04#8
  | .aborted => 0x05#8
  | .timedOut => 0x06#8
  | .exhausted => 0x07#8

/-- The outcome's generation, 0 when absent (R89). -/
def TxnOutcome.gen : TxnOutcome → Gen
  | .committed g => g
  | _ => 0#32

/-- The outcome's conflicting tag, 0x0000 when absent (R89). -/
def TxnOutcome.conflictTag : TxnOutcome → Tag
  | .conflict t _ => t
  | _ => 0#16

/-- The code of the outcome's detail (Table 10-2), NONE when absent. -/
def TxnOutcome.detailCode : TxnOutcome → Byte
  | .conflict _ .changed => 0x01#8
  | .conflict _ .alreadyExists => 0x02#8
  | .conflict _ .gone => 0x03#8
  | .noSpace .versions => 0x04#8
  | .noSpace .slots => 0x05#8
  | _ => 0x00#8

/-- The staging refusal detail code. -/
def StagingDetail.code : StagingDetail → Byte
  | .none => 0x00#8
  | .pages => 0x06#8
  | .quota => 0x07#8

/-- The event kind code. -/
def EventKind.code : EventKind → Byte
  | .changed => 0x01#8
  | .created => 0x02#8
  | .deleted => 0x03#8
  | .commitDone => 0x10#8
  | .txnTimeout => 0x11#8
  | .snapLapsed => 0x12#8
  | .imageDone => 0x13#8

/-- The code of a checkpoint's cause. -/
def Cause.code : Cause → Byte
  | .eraseTimeout => 0x11#8
  | .programTimeout => 0x12#8
  | .verify => 0x13#8

/-- The image result code, the detail of IMAGE_DONE. -/
def ImageResult.code : ImageResult → Byte
  | .saved => 0x01#8
  | .cancelled => 0x02#8
  | .failed c => c.code

/-- The code of an event's detail. -/
def EventDetail.code : EventDetail → Byte
  | .zero => 0x00#8
  | .outcome o => o.code
  | .image r => r.code

/-- The last checkpoint result code (Table 10-2). -/
def lastResultCode : Option ImageResult → Byte
  | none => 0x00#8
  | some .saved => 0x01#8
  | some .cancelled => 0x02#8
  | some (.failed _) => 0x10#8

/-- The last checkpoint cause code (Table 10-2). -/
def lastCauseCode : Option ImageResult → Byte
  | some (.failed c) => c.code
  | _ => 0x00#8

/-- The device state code. -/
def DeviceState.code : DeviceState → Byte
  | .loading => 0x00#8
  | .ready => 0x01#8

/-- The load result code. -/
def LoadResult.code : LoadResult → Byte
  | .none => 0x00#8
  | .loaded => 0x01#8
  | .stoppedPartial => 0x02#8
  | .empty _ => 0x03#8

/-- The load detail code. -/
def LoadResult.detailCode : LoadResult → Byte
  | .empty .noImage => 0x01#8
  | .empty .rejected => 0x02#8
  | _ => 0x00#8

/-- The checkpoint stage code. -/
def stageCode : Option Checkpoint → Byte
  | none => 0x00#8
  | some c =>
    match c.stage with
    | .erasing _ => 0x01#8
    | .writing _ _ => 0x02#8
    | .sealing => 0x03#8

/-- The image slot code. -/
def ImageSlot.code : ImageSlot → Byte
  | .slot0 => 0x00#8
  | .slot1 => 0x01#8

/-- The current slot code, FFh for none. -/
def currentSlotCode : Option ImageSlot → Byte
  | none => 0xFF#8
  | some i => i.code

/-! ### Argument fields of a request (Table 10-3), offsets counted after the code byte -/

/-- The tag at offset 0. -/
def argTag (args : List Byte) : Tag := BitVec.ofNat 16 (fieldAt args 0 2)

/-- A 16-bit field. -/
def arg16 (args : List Byte) (offset : Nat) : Nat := fieldAt args offset 2

/-- A one-byte field. -/
def argByte (args : List Byte) (offset : Nat) : Byte := args.getD offset 0#8

/-- The signed 32-bit delta of ADD, at offset 2. -/
def argDelta (args : List Byte) : Int := (BitVec.ofNat 32 (fieldAt args 2 4)).toInt

/-- 0x0000 and 0xFFFF are no record tags (R1). -/
def recordTag (t : Tag) : Bool := t != 0x0000#16 && t != 0xFFFF#16

/-! ### Entries -/

/-- An event entry (Table 10-9). -/
def Event.bytes (e : Event) : List Byte := [e.kind.code, e.detail.code] ++ be16 e.tag ++ be32 e.gen

/-- The entry head of Table 10-12, which is also the start of a SCAN entry (R191). -/
def entryHead (tag : Tag) (kind : Kind) (attrs : Attrs) (length : Nat) (crc : Crc) : List Byte :=
  be16 tag ++ [attributesByte kind attrs.persist, byteOfWriters attrs.writers] ++ natBe16 length ++ be16 crc

/-- A reply: its result and its payload. -/
structure Answer where
  result : Result
  payload : List Byte
deriving DecidableEq, Repr

/-- A reply with no payload. -/
def Answer.bare (r : Result) : Answer := ⟨r, []⟩

/-- The header of a reply (R190). -/
def replyHeader (result : Result) (code : Byte) (gen : Gen) : List Byte := [result.code, code] ++ be32 gen

/-- The bytes of the reply buffer: header and payload (R172). -/
def Reply.bytes (r : Reply) : List Byte := replyHeader r.result r.code r.gen ++ r.payload

end Sys2Proof.Machine
end

