-- ==== Sys2Proof/Machine/Pool.lean ====
section
/-! DEFINITION. The page pool (chapter 2): pages, reference counts, the free list and the claims of WRITE,
RESIZE, release, hand-over, retirement and load. -/

namespace Sys2Proof.Machine

/-! ### Pages -/

/-- The reference count of a page (R24). -/
def Pool.ref (pool : Pool) (n : PageNo) : Nat := cellRead 0 pool.refs n

/-- The 32 bytes of a page (R23). -/
def Pool.page (pool : Pool) (n : PageNo) : List Byte :=
  readBlock 0#8 pool.bytes (Config.pageSize * n) Config.pageSize

/-- Writing bytes into a page from an offset of it on. -/
def Pool.fill (pool : Pool) (n : PageNo) (offset : Nat) (bs : List Byte) : Pool :=
  { pool with bytes := writeBlock 0#8 pool.bytes (Config.pageSize * n + offset) bs }

/-- A list gains the page (R24). -/
def Pool.gain (pool : Pool) (n : PageNo) : Pool :=
  { pool with refs := cellWrite 0 pool.refs n (pool.ref n + 1) }

/-- A list loses the page; one whose count falls to 0 joins the tail of the free list (R24, R25). -/
def Pool.lose (pool : Pool) (n : PageNo) : Pool :=
  match pool.ref n with
  | 0 => pool
  | 1 => { pool with refs := cellWrite 0 pool.refs n 0, free := pool.free ++ [n] }
  | k + 2 => { pool with refs := cellWrite 0 pool.refs n (k + 1) }

/-- Lists lose pages, in the order given (R25). -/
def Pool.loseAll (pool : Pool) (ns : List PageNo) : Pool := ns.foldl Pool.lose pool

/-- Lists gain pages, in the order given. -/
def Pool.gainAll (pool : Pool) (ns : List PageNo) : Pool := ns.foldl Pool.gain pool

/-- Allocation: the page at the head of the free list, its 32 bytes written (short contents are
completed with 0x00) and its count 1 (R23, R24). None when the free list is empty. -/
def Pool.alloc (pool : Pool) (contents : List Byte) : Option (PageNo × Pool) :=
  match pool.free with
  | [] => none
  | n :: rest =>
    let bs := contents ++ List.replicate (Config.pageSize - contents.length) 0#8
    some (n, { pool with
      free := rest
      refs := cellWrite 0 pool.refs n 1
      bytes := writeBlock 0#8 pool.bytes (Config.pageSize * n) bs })

/-- The pages that a body of a length holds: ceil(length/32) (R26). -/
def pagesFor (length : Nat) : Nat := (length + (Config.pageSize - 1)) / Config.pageSize

/-! ### Staged bodies (R27, R28) -/

/-- The empty staged body, with which a CREATED entry begins (R27). -/
def StagedBody.empty : StagedBody := ⟨0, []⟩

/-- A copy of a base version's length and page list, no page of it staged-owned (R27). -/
def StagedBody.ofBase (length : Nat) (pages : List PageNo) : StagedBody :=
  ⟨length, pages.map (fun n => ⟨n, false⟩)⟩

/-- The staged-owned pages of a body (R28). -/
def StagedBody.ownedCount (b : StagedBody) : Nat := b.pages.countP (fun x => x.owned)

/-- The page numbers of a body, in order. -/
def StagedBody.pageNos (b : StagedBody) : List PageNo := b.pages.map StagedPage.page

/-! ### The changes that WRITE and RESIZE make, none when the free list runs short -/

/-- One touched page of a WRITE (the table of R30): appended when beyond the end of the list, replaced by
a copy when its count is above 1, left in place otherwise. -/
def touchPage (pool : Pool) (body : StagedBody) (i : Nat) : Option (Pool × StagedBody) :=
  match body.pages[i]? with
  | none =>
    match pool.alloc [] with
    | none => none
    | some (n, pool') => some (pool', { body with pages := body.pages ++ [⟨n, true⟩] })
  | some x =>
    if 1 < pool.ref x.page then
      match pool.alloc (pool.page x.page) with
      | none => none
      | some (n, pool') => some (pool'.lose x.page, { body with pages := body.pages.set i ⟨n, true⟩ })
    else some (pool, body)

/-- Touched pages in ascending order. -/
def touchPages : List Nat → Pool → StagedBody → Option (Pool × StagedBody)
  | [], pool, body => some (pool, body)
  | i :: rest, pool, body =>
    match touchPage pool body i with
    | none => none
    | some (pool', body') => touchPages rest pool' body'

/-- The pages that a WRITE touches: floor(offset/32) to floor((offset + count − 1)/32) (R30). -/
def touchedBy (offset count : Nat) : List Nat :=
  let first := offset / Config.pageSize
  let last := (offset + count - 1) / Config.pageSize
  (List.range (last + 1 - first)).map (fun i => first + i)

/-- The data bytes of a WRITE into the pages of the body, the first at body offset `offset` (R189). -/
def storeBody (body : StagedBody) : Nat → List Byte → Pool → Pool
  | _, [], pool => pool
  | offset, b :: bs, pool =>
    match body.pages[offset / Config.pageSize]? with
    | none => storeBody body (offset + 1) bs pool
    | some x => storeBody body (offset + 1) bs (pool.fill x.page (offset % Config.pageSize) [b])

/-- WRITE's change of a staged body (R30). -/
def writeBody (offset : Nat) (data : List Byte) (pool : Pool) (body : StagedBody) : Option (Pool × StagedBody) :=
  match touchPages (touchedBy offset data.length) pool body with
  | none => none
  | some (pool', body') =>
    some (storeBody body' offset data pool', { body' with length := max body.length (offset + data.length) })

/-- Fresh pages full of 0x00, appended in order (R31). -/
def growPages : Nat → Pool → StagedBody → Option (Pool × StagedBody)
  | 0, pool, body => some (pool, body)
  | k + 1, pool, body =>
    match pool.alloc [] with
    | none => none
    | some (n, pool') => growPages k pool' { body with pages := body.pages ++ [⟨n, true⟩] }

/-- RESIZE to a length that is not smaller: growth with 0x00 (R31). -/
def growBody (length : Nat) (pool : Pool) (body : StagedBody) : Option (Pool × StagedBody) :=
  match growPages (pagesFor length - pagesFor body.length) pool body with
  | none => none
  | some (pool', body') => some (pool', { body' with length := length })

/-- Clearing the bytes of the page that becomes last from `tail` on: in place when its count is 1, in a
copy otherwise (R32). -/
def clearTail (tail : Nat) (pool : Pool) (body : StagedBody) : Option (Pool × StagedBody) :=
  match body.pages.getLast? with
  | none => some (pool, body)
  | some x =>
    if 1 < pool.ref x.page then
      match pool.alloc ((pool.page x.page).take tail) with
      | none => none
      | some (n, pool') => some (pool'.lose x.page, { body with pages := body.pages.dropLast ++ [⟨n, true⟩] })
    else some (pool.fill x.page tail (List.replicate (Config.pageSize - tail) 0#8), body)

/-- RESIZE to a smaller length: the pages past the new end leave the list first, so that a copy may take
a page just freed, and the tail of the new last page is cleared (R32). -/
def shrinkBody (length : Nat) (pool : Pool) (body : StagedBody) : Option (Pool × StagedBody) :=
  let keep := pagesFor length
  let pool' := pool.loseAll ((body.pages.drop keep).map StagedPage.page)
  let body' : StagedBody := ⟨length, body.pages.take keep⟩
  if length % Config.pageSize = 0 then some (pool', body')
  else clearTail (length % Config.pageSize) pool' body'

/-- RESIZE's change of a staged body (R31, R32). -/
def resizeBody (length : Nat) (pool : Pool) (body : StagedBody) : Option (Pool × StagedBody) :=
  if length < body.length then shrinkBody length pool body else growBody length pool body

/-! ### Claims (R29) -/

/-- A staged claim of a port, from the pool and body it starts with and the change it would make. It is
refused with PAGES when the change runs short of free pages, then with QUOTA when the port's
staged-owned count would pass 256; a refused claim changes nothing. -/
def stagedClaim (p : Port) (pool : Pool) (body : StagedBody)
    (change : Option (Pool × StagedBody)) : Except StagingDetail (Pool × StagedBody) :=
  match change with
  | none => .error .pages
  | some (pool', body') =>
    let owned := pool.stagedOwned.get p + body'.ownedCount - body.ownedCount
    if Config.stagingQuota < owned then .error .quota
    else .ok ({ pool' with stagedOwned := pool'.stagedOwned.set p owned }, body')

/-- Releasing a staged body of a port (R33). -/
def Pool.releaseBody (pool : Pool) (p : Port) (body : StagedBody) : Pool :=
  let pool' := pool.loseAll body.pageNos
  { pool' with stagedOwned := pool'.stagedOwned.set p (pool'.stagedOwned.get p - body.ownedCount) }

/-- Handing a staged list over to a version: the counts of the pages stay, the port's staged-owned count
falls by the staged-owned pages of the list (R34). -/
def Pool.handOver (pool : Pool) (p : Port) (body : StagedBody) : Pool :=
  { pool with stagedOwned := pool.stagedOwned.set p (pool.stagedOwned.get p - body.ownedCount) }

/-- The loader's pages for a body: one allocation for each 32 bytes (or the rest), in list order (R36). -/
def loadPages : Nat → List Byte → Pool → Option (List PageNo × Pool)
  | 0, _, pool => some ([], pool)
  | k + 1, bs, pool =>
    match pool.alloc (bs.take Config.pageSize) with
    | none => none
    | some (n, pool') =>
      match loadPages k (bs.drop Config.pageSize) pool' with
      | none => none
      | some (ns, pool'') => some (n :: ns, pool'')

/-- The byte at an offset of a body held in a page list (R6). -/
def Pool.bodyByte (pool : Pool) (pages : List PageNo) (offset : Nat) : Byte :=
  match pages[offset / Config.pageSize]? with
  | none => 0#8
  | some n => cellRead 0#8 pool.bytes (Config.pageSize * n + offset % Config.pageSize)

/-- The first `length` bytes of a body held in a page list. -/
def Pool.body (pool : Pool) (pages : List PageNo) (length : Nat) : List Byte :=
  (List.range length).map (pool.bodyByte pages)

end Sys2Proof.Machine
end

