-- ==== Sys2Proof/Machine/Directory.lean ====
section
/-! DEFINITION. The record directory and the version table (chapter 1): lookup, visibility, installation
and retirement. -/

namespace Sys2Proof.Machine

/-! ### Versions -/

/-- A tombstone (R11). -/
def Version.isTombstone (v : Version) : Bool :=
  match v.content with
  | .tombstone => true
  | .blob .. | .counter .. => false

/-- The page list of a version: empty for counters and tombstones (R26). -/
def Version.pages (v : Version) : List PageNo :=
  match v.content with
  | .blob _ _ pages _ => pages
  | .counter .. | .tombstone => []

/-- The writers and persist attributes of a version; a tombstone has none (R11). -/
def Version.attrs? (v : Version) : Option Attrs :=
  match v.content with
  | .blob a _ _ _ => some a
  | .counter a _ _ => some a
  | .tombstone => none

/-- The kind of a version; a tombstone has none. -/
def Version.kind? (v : Version) : Option Kind :=
  match v.content with
  | .blob .. => some .blob
  | .counter .. => some .counter
  | .tombstone => none

/-- The length of a version: 4 for a COUNTER; 0 is reported for a tombstone's absent length (R188). -/
def Version.length (v : Version) : Nat :=
  match v.content with
  | .blob _ n _ _ => n
  | .counter .. => 4
  | .tombstone => 0

/-- The crc of a version, 0 for a tombstone's absent crc (R188). -/
def Version.crc (v : Version) : Crc :=
  match v.content with
  | .blob _ _ _ c => c
  | .counter _ _ c => c
  | .tombstone => 0#16

/-- The value of a COUNTER, 0 for the other kinds' absent value (R188). -/
def Version.value (v : Version) : BitVec 32 :=
  match v.content with
  | .counter _ x _ => x
  | .blob .. | .tombstone => 0#32

/-- The byte at an offset of a version's body: from its pages for a BLOB, from its four value bytes for a
COUNTER (R55). -/
def Version.bodyByte (pool : Pool) (v : Version) (offset : Nat) : Byte :=
  match v.content with
  | .blob _ _ pages _ => pool.bodyByte pages offset
  | .counter _ x _ => (be32 x).getD offset 0#8
  | .tombstone => 0#8

/-- The whole body of a version (R152). -/
def Version.body (pool : Pool) (v : Version) : List Byte :=
  (List.range v.length).map (v.bodyByte pool)

/-- The entry head of a version under its tag (R191, R192); none for a tombstone. -/
def Version.head? (tag : Tag) (v : Version) : Option (List Byte) :=
  match v.content with
  | .blob a n _ c => some (entryHead tag .blob a n c)
  | .counter a _ c => some (entryHead tag .counter a 4 c)
  | .tombstone => none

/-! ### Lookup (R3) and visibility (R17) -/

/-- The chain of a tag, empty when no slot holds it. -/
def chainOf (dir : List DirSlot) (tag : Tag) : List Version :=
  match dir.find? (fun d => d.tag == tag) with
  | none => []
  | some d => d.chain

/-- The three results of a lookup (R3), each with the newest version it found. -/
inductive Lookup where
  | absent
  | deletedHead (newest : Version)
  | liveHead (newest : Version)
deriving DecidableEq, Repr

/-- The lookup of a tag in the directory as it stands (R3). -/
def lookup (dir : List DirSlot) (tag : Tag) : Lookup :=
  match chainOf dir tag with
  | [] => .absent
  | v :: _ => if v.isTombstone then .deletedHead v else .liveHead v

/-- The version of a chain visible at a generation: the newest whose generation is at most it (R17). -/
def versionAt (chain : List Version) (view : Gen) : Option Version :=
  chain.find? (fun v => decide (v.gen ≤ view))

/-- The visible version of a chain when the record is visible: not a tombstone (R17). -/
def visibleAt (chain : List Version) (view : Gen) : Option Version :=
  match versionAt chain view with
  | none => none
  | some v => if v.isTombstone then none else some v

/-- The visible version of a tag (R17). -/
def visible (dir : List DirSlot) (tag : Tag) (view : Gen) : Option Version := visibleAt (chainOf dir tag) view

/-- The records visible at a view, in ascending tag order (R57). -/
def visibleRecords (dir : List DirSlot) (view : Gen) : List (Tag × Version) :=
  dir.filterMap (fun d => (visibleAt d.chain view).map (fun v => (d.tag, v)))

/-- The lowest-tagged record visible at a view whose tag is at or above a position (R56). -/
def nextVisible (dir : List DirSlot) (view : Gen) (position : Tag) : Option (Tag × Version) :=
  (visibleRecords dir view).find? (fun x => decide (position ≤ x.1))

/-! ### Slots and entries -/

/-- Version entries in use (R12). -/
def entriesInUse (dir : List DirSlot) : Nat := (dir.map (fun d => d.chain.length)).sum

/-- Reserved version entries (R12). -/
def reservedEntries : Engine → Nat
  | .idle => 0
  | .digesting c => c.reservedEntries

/-- Reserved directory slots (R4). -/
def reservedSlots : Engine → Nat
  | .idle => 0
  | .digesting c => c.reservedSlots

/-- Free version entries: 256 less those in use less those reserved (R12). -/
def freeEntries (s : State) : Nat := Config.versionEntries - entriesInUse s.directory - reservedEntries s.engine

/-- Free directory slots: 128 less those occupied less those reserved (R4). -/
def freeSlots (s : State) : Nat := Config.directorySlots - s.directory.length - reservedSlots s.engine

/-- A version becomes the newest of its tag's chain; a tag that has no slot takes one, in its place in
the ascending order (R2, R13, R110). -/
def install : List DirSlot → Tag → Version → List DirSlot
  | [], tag, v => [⟨tag, [v]⟩]
  | d :: rest, tag, v =>
    if tag < d.tag then ⟨tag, [v]⟩ :: d :: rest
    else if tag = d.tag then { d with chain := v :: d.chain } :: rest
    else d :: install rest tag v

/-! ### Retirement (R19 to R22, R14) -/

/-- The generations of the snapshots in state HELD or FRAME, slot 4 among them (R19). -/
def holdingGens (s : State) : List Gen :=
  (Port.all.filterMap (fun p =>
    match (s.snaps.get p).state with
    | .held g => some g
    | .frame g => some g
    | .free | .lapsed => none)) ++ s.slot4.toList

/-- The retention test: some holding snapshot lies in the window from a version's generation up to, but
not including, the next newer version's (R19). -/
def retained (gens : List Gen) (gen newer : Gen) : Bool := gens.any (fun s => decide (gen ≤ s) && decide (s < newer))

/-- The versions behind one of generation `newer`, checked: those kept, newest first, and those retired,
oldest first (R20). -/
def sweepOlder (gens : List Gen) : Gen → List Version → List Version × List Version
  | _, [] => ([], [])
  | newer, v :: older =>
    let (kept, gone) := sweepOlder gens v.gen older
    if retained gens v.gen newer then (v :: kept, gone) else (kept, gone ++ [v])

/-- A tombstone left as the only version of its chain is retired as well (R14). -/
def retireLoneTombstone (x : List Version × List Version) : List Version × List Version :=
  match x.1 with
  | [v] => if v.isTombstone then ([], x.2 ++ [v]) else x
  | _ => x

/-- The check of a snapshot release on one chain: every version but the newest (R22). -/
def releaseCheck (gens : List Gen) (d : DirSlot) : List Version × List Version :=
  match d.chain with
  | [] => ([], [])
  | v :: older =>
    let (kept, gone) := sweepOlder gens v.gen older
    retireLoneTombstone (v :: kept, gone)

/-- The check of a publish on one chain: the previous newest version of a changed record (R21). -/
def publishCheck (gens : List Gen) (changed : List Tag) (d : DirSlot) : List Version × List Version :=
  if d.tag ∈ changed then
    match d.chain with
    | v :: prev :: older =>
      if retained gens prev.gen v.gen then (v :: prev :: older, [])
      else retireLoneTombstone (v :: older, [prev])
    | chain => retireLoneTombstone (chain, [])
  else (d.chain, [])

/-- The tags of the CREATED intents of the commit in progress (R104). -/
def createdInCommit (s : State) : List Tag :=
  match s.engine with
  | .idle => []
  | .digesting c =>
    (s.txns.get c.port).intents.filterMap (fun i =>
      match i.op with
      | .created _ _ => some i.tag
      | .written .. | .added .. | .deleted .. => none)

/-- Slots freed under a commit in progress become reserved for its CREATED intents (R104). -/
def Engine.passSlots (e : Engine) (n : Nat) : Engine :=
  match e with
  | .idle => .idle
  | .digesting c => .digesting { c with reservedSlots := c.reservedSlots + n }

/-- A chain after a check: the versions kept and those retired, under their tag. -/
structure Checked where
  tag : Tag
  kept : List Version
  gone : List Version
deriving DecidableEq, Repr

/-- A retirement run: every chain checked in ascending tag order, the retired versions' pages lost in
the order of R20, emptied slots freed or passed into reservation (R20, R104). -/
def retireBy (check : DirSlot → List Version × List Version) (s : State) : State :=
  let checked := s.directory.map (fun d => Checked.mk d.tag (check d).1 (check d).2)
  let freed := checked.countP (fun x => x.kept.isEmpty && decide (x.tag ∈ createdInCommit s))
  { s with
    directory := checked.filterMap (fun x => if x.kept.isEmpty then none else some ⟨x.tag, x.kept⟩)
    pool := s.pool.loseAll (checked.flatMap (fun x => x.gone.flatMap Version.pages))
    engine := s.engine.passSlots freed }

/-- The retirement of a snapshot release, run after the slot has left HELD or FRAME (R22). -/
def retireOnRelease (s : State) : State := retireBy (releaseCheck (holdingGens s)) s

/-- The retirement of a publish (R21). -/
def retireOnPublish (changed : List Tag) (s : State) : State := retireBy (publishCheck (holdingGens s) changed) s

end Sys2Proof.Machine
end

