-- ==== Sys2Proof/Machine/Frames.lean ====
section
/-! DEFINITION. The end of a write frame, as every request shares it: the judgement of Table 8-2 and the
reply of R169. -/

namespace Sys2Proof.Machine

/-- The end of a frame on a port: IDLE, the stall timer stopped, SDA released (R164, R165). -/
def closeFrame (p : Port) (s : State) : State :=
  s.setIface p { s.ifaces.get p with frame := .idle, stall := none, bus := .released }

/-- A judged write frame ends any open stream (R169). -/
def endStream (p : Port) (s : State) : State :=
  s.setIface p { s.ifaces.get p with stream := .closed }

/-- The reply of a judged write frame: its result, the code the frame carried, G at the frame's end and
the payload (R169). -/
def writeReply (p : Port) (code : Byte) (gen : Gen) (a : Answer) (s : State) : State :=
  s.setIface p { s.ifaces.get p with reply := ⟨a.result, code, gen, a.payload⟩ }

/-- How a block takes a request: from its arguments and the state, the state after and the answer. -/
abbrev Taking := Port → List Byte → State → State × Answer

/-- Steps 3 to 5 of Table 8-2 for a frame that names the request `r`: MALFORMED, NOT_READY, or taken. -/
def judge (r : Request) (taking : Taking) (p : Port) (buffer : List Byte) (s : State) : State × Answer :=
  if buffer.length < declaredLength buffer then (s, Answer.bare .malformed)
  else if loading s && r != .deviceStatus then (s, Answer.bare .notReady)
  else taking p buffer.tail s

/-- The end of a write frame that carries the request `r`: the frame closes, the stream ends, the request
is judged and the reply written (R168, R169). -/
def endWriteFrame (r : Request) (taking : Taking) (p : Port) (buffer : List Byte) (s : State) : State :=
  let judged := judge r taking p buffer (endStream p (closeFrame p s))
  writeReply p (requestCode r) s.g judged.2 judged.1

/-- The happening of a request row: the port's write frame ends and carries the row's code. When no write
frame with that code is open, the happening does not happen (log entry 1). -/
def endRequest (r : Request) (taking : Taking) (p : Port) (s : State) : State :=
  match (s.ifaces.get p).frame with
  | .receiving _ (c :: args) => if c = requestCode r then endWriteFrame r taking p (c :: args) s else s
  | .receiving _ [] | .idle | .sending _ _ => s

/-- The end of a write frame whose code names no request: UNKNOWN, with the code itself (R168, R169). -/
def endUnknown (p : Port) (code : Byte) (s : State) : State :=
  writeReply p code s.g (Answer.bare .unknown) (endStream p (closeFrame p s))

end Sys2Proof.Machine
end

