-- ==== Sys2Proof/Machine/Snapshots.lean ====
section
/-! DEFINITION. Snapshots and the read requests (chapter 3): SNAP_OPEN, SNAP_CLOSE, STAT, READ, SCAN, the
lapse and HOLD_TIMER_EXPIRY. -/

namespace Sys2Proof.Machine

/-- The configured hold timeout, loaded (R41). -/
def loadHold (p : Port) (s : State) : Timer := Timer.load (s.ifaces.get p).config.holdTimeout

/-- A port's slot leaves its state and becomes FREE, with the timer stopped and the mark clear. -/
def freeSlot (p : Port) (s : State) : State := s.setSnap p Snap.afterReset

/-- The release of a port's explicit binding: from HELD or LAPSED the slot becomes FREE and retirement
runs; from FREE nothing happens (R22, R39, R40, R61). -/
def releaseBinding (p : Port) (s : State) : State :=
  match (s.snaps.get p).state with
  | .free => freeSlot p s
  | .held _ | .lapsed | .frame _ => retireOnRelease (freeSlot p s)

/-- A lapse of a slot HELD at a generation: LAPSED, retirement, then the event and the flag (R42, R44). -/
def lapse (p : Port) (gen : Gen) (s : State) : State :=
  deliver p ⟨.snapLapsed, 0#16, gen, .zero⟩ flagLapsed
    (retireOnRelease (s.setSnap p ⟨.lapsed, none, false⟩))

/-- A read frame is open on the port. -/
def readFrameOpen (p : Port) (s : State) : Bool :=
  match (s.ifaces.get p).frame with
  | .sending _ _ => true
  | .idle | .receiving _ _ => false

/-! ### SNAP_OPEN and SNAP_CLOSE -/

/-- SNAP_OPEN (R39). -/
def takeSnapOpen (p : Port) (s : State) : State × Answer :=
  let previous := (s.snaps.get p).state
  let released := releaseBinding p s
  (released.setSnap p ⟨.held s.g, loadHold p s, false⟩, ⟨.ok, [previous.code]⟩)

/-- SNAP_CLOSE (R40). -/
def takeSnapClose (p : Port) (s : State) : State × Answer :=
  (releaseBinding p s, ⟨.ok, [(s.snaps.get p).state.code]⟩)

/-! ### STAT, READ and SCAN -/

/-- The view of a STAT, none when the slot is LAPSED (Table 3-3). -/
def statView (p : Port) (s : State) : Option Gen :=
  match (s.snaps.get p).state with
  | .held g => some g
  | .frame g => some g
  | .free => some s.g
  | .lapsed => none

/-- The payload of STAT for a view with no visible version: the other fields 0 (Table 10-6). -/
def statEmpty (view : Gen) : List Byte := be32 view ++ List.replicate 15 0#8

/-- The payload of STAT for a visible version (Table 10-6). -/
def statPayload (view : Gen) (v : Version) : List Byte :=
  let kind := match v.kind? with | none => 0x00#8 | some k => k.code
  let persist := match v.attrs? with | none => 0x00#8 | some a => a.persist.code
  let writers := match v.attrs? with | none => 0x00#8 | some a => byteOfWriters a.writers
  be32 view ++ [kind, persist, writers] ++ natBe16 v.length ++ be16 v.crc ++ be32 v.gen ++ be32 v.value

/-- The answer of STAT (R52). -/
def statAnswer (p : Port) (tag : Tag) (s : State) : Answer :=
  if recordTag tag then
    match statView p s with
    | none => ⟨.lapsed, statEmpty 0#32⟩
    | some view =>
      match visible s.directory tag view with
      | none => ⟨.absent, statEmpty view⟩
      | some v => ⟨.ok, statPayload view v⟩
  else Answer.bare .range

/-- STAT changes nothing but the reply (R52). -/
def takeStat (p : Port) (tag : Tag) (s : State) : State × Answer := (s, statAnswer p tag s)

/-- Opening a stream (R49). -/
def openStream (p : Port) (stream : Stream) (s : State) : State :=
  s.setIface p { s.ifaces.get p with stream := stream }

/-- READ (R53). -/
def takeRead (p : Port) (tag : Tag) (offset : Nat) (s : State) : State × Answer :=
  if recordTag tag then (openStream p (.read tag offset) s, Answer.bare .ok)
  else (s, Answer.bare .range)

/-- SCAN (R56). -/
def takeScan (p : Port) (position : Tag) (s : State) : State × Answer :=
  (openStream p (.scan position) s, Answer.bare .ok)

/-! ### The hold timer -/

/-- The hold timer's expiry: a lapse, or a pending one when a read frame is open (R42, R43). -/
def expireHold (p : Port) (s : State) : State :=
  let snap := s.snaps.get p
  match snap.state with
  | .held gen =>
    if snap.hold.due then
      if readFrameOpen p s then s.setSnap p ⟨.held gen, none, true⟩ else lapse p gen s
    else s
  | .free | .frame _ | .lapsed => s

/-! ### Request arguments -/

/-- SNAP_OPEN carries no argument (Table 10-3). -/
def requestSnapOpen : Taking := fun p _ s => takeSnapOpen p s
/-- SNAP_CLOSE carries no argument. -/
def requestSnapClose : Taking := fun p _ s => takeSnapClose p s
/-- STAT carries a tag. -/
def requestStat : Taking := fun p args s => takeStat p (argTag args) s
/-- READ carries a tag and an offset. -/
def requestRead : Taking := fun p args s => takeRead p (argTag args) (arg16 args 2) s
/-- SCAN carries a tag. -/
def requestScan : Taking := fun p args s => takeScan p (argTag args) s

/-! ### Meanings -/

/-- SNAP_OPEN (R39). -/
def execSnapOpen (p : Port) (s : State) : Out := .next (endRequest .snapOpen requestSnapOpen p s)

/-- SNAP_CLOSE (R40). -/
def execSnapClose (p : Port) (s : State) : Out := .next (endRequest .snapClose requestSnapClose p s)

/-- STAT (R52). -/
def execStat (p : Port) (s : State) : Out := .next (endRequest .stat requestStat p s)

/-- READ (R53). -/
def execRead (p : Port) (s : State) : Out := .next (endRequest .read requestRead p s)

/-- SCAN (R56). -/
def execScan (p : Port) (s : State) : Out := .next (endRequest .scan requestScan p s)

/-- HOLD_TIMER_EXPIRY (R42, R43). -/
def execHoldTimerExpiry (p : Port) (s : State) : Out := .next (expireHold p s)

end Sys2Proof.Machine
end

