-- ==== Sys2Proof/Machine/Transactions.lean ====
section
/-! DEFINITION. Write transactions (chapter 4): BEGIN, the staging requests CREATE, WRITE, RESIZE, ADD and
DELETE, COMMIT, ABORT, TXN_STATUS, and IDLE_TIMER_EXPIRY. -/

namespace Sys2Proof.Machine

/-! ### Intent lists (R63) -/

/-- The entry of a tag. -/
def findIntent (intents : List Intent) (tag : Tag) : Option Intent := intents.find? (fun i => i.tag == tag)

/-- Another operation for the entry of a tag, which keeps its place. -/
def changeIntent (intents : List Intent) (tag : Tag) (op : IntentOp) : List Intent :=
  intents.map (fun i => if i.tag = tag then { i with op := op } else i)

/-- The list without the entry of a tag; the entries behind it close up. -/
def removeIntent (intents : List Intent) (tag : Tag) : List Intent := intents.filter (fun i => i.tag != tag)

/-- The staged body of an operation, when it has one (R64). -/
def IntentOp.body? : IntentOp → Option StagedBody
  | .created _ (.blob body) => body
  | .created _ (.counter _) => none
  | .written _ body => some body
  | .added _ _ => none
  | .deleted _ => none

/-- Releasing the staged body of an entry, when it has one (R33). -/
def releaseOp (p : Port) (op : IntentOp) (pool : Pool) : Pool :=
  match op.body? with
  | none => pool
  | some body => pool.releaseBody p body

/-- Releasing the staged bodies of intents, in list order (R33). -/
def releaseBodies (p : Port) (pool : Pool) (intents : List Intent) : Pool :=
  intents.foldl (fun pool i => releaseOp p i.op pool) pool

/-- The end of a port's transaction without a publish: every staged body released, the intent list
emptied, the context NONE with an outcome (R83, R84, R87, R92, R103). -/
def discardTxn (p : Port) (outcome : TxnOutcome) (s : State) : State :=
  let ctx := s.txns.get p
  { s with pool := releaseBodies p s.pool ctx.intents }.setTxn p
    { ctx with state := .none, intents := [], idle := none, outcome := outcome }

/-- The port's transaction idle timeout, loaded (R86). -/
def loadIdle (p : Port) (s : State) : Timer := Timer.load (s.ifaces.get p).config.idleTimeout

/-! ### Staging requests: the common part (R66 to R68) -/

/-- Why a staging request is refused: a plain result, or NOSPACE with its detail. -/
inductive Refused where
  | plain (r : Result)
  | noSpace (detail : StagingDetail)
deriving DecidableEq, Repr

/-- What every staging request taken in OPEN does beside its own effect: the idle timer is reloaded and
the staging refusal detail set (R68). -/
def noteStaging (p : Port) (detail : StagingDetail) (s : State) : State :=
  s.setTxn p { s.txns.get p with idle := loadIdle p s, refusal := detail }

/-- A staging request by context state (Table 4-4): NO_TXN, BUSY, or checked and staged by `act`. -/
def staging (p : Port) (act : Except Refused State) (s : State) : State × Answer :=
  match (s.txns.get p).state with
  | .none => (s, Answer.bare .noTxn)
  | .opened =>
    match act with
    | .ok t => (noteStaging p .none t, Answer.bare .ok)
    | .error (.plain r) => (noteStaging p .none s, Answer.bare r)
    | .error (.noSpace detail) => (noteStaging p detail s, Answer.bare .noSpace)
  | .queued | .applying | .detached => (s, Answer.bare .busy)

/-- Another intent list for a port's transaction. -/
def withIntents (p : Port) (intents : List Intent) (s : State) : State :=
  s.setTxn p { s.txns.get p with intents := intents }

/-- The port may change a record with these attributes: it is in the writers, or privileged (R8, R70). -/
def permitted (s : State) (p : Port) (a : Attrs) : Bool := a.writers.getLsbD p.index || privileged s p

/-! ### CREATE -/

/-- CREATE's checks and effect in OPEN (R67, R69, R72, R73). Kind, writers and persist are the bytes that
the request carries. -/
def actCreate (p : Port) (tag : Tag) (kind writers persist : Byte) (s : State) : Except Refused State :=
  let intents := (s.txns.get p).intents
  if recordTag tag then
    match Kind.ofCode kind, writersOfByte writers, Persist.ofCode persist with
    | some k, some w, some q =>
      match findIntent intents tag with
      | some ⟨_, .deleted _⟩ => .error (.plain .deleted)
      | some _ => .error (.plain .alreadyExists)
      | none =>
        if Config.maxIntents ≤ intents.length then .error (.plain .limit)
        else
          match lookup s.directory tag with
          | .liveHead _ => .error (.plain .alreadyExists)
          | .absent | .deletedHead _ =>
            let staged := match k with | .blob => CreatedAs.blob none | .counter => CreatedAs.counter 0
            .ok (withIntents p (intents ++ [⟨tag, .created ⟨w, q⟩ staged⟩]) s)
    | _, _, _ => .error (.plain .range)
  else .error (.plain .range)

/-! ### WRITE and RESIZE -/

/-- The body that a WRITE or RESIZE starts from: the tag's entry with its staged body, a CREATED entry
that has none yet, or a first touch of a base version (R27, R75). -/
inductive Start where
  | entry (op : IntentOp) (body : StagedBody)
  | firstTouch (base : Gen) (length : Nat) (pages : List PageNo)
deriving DecidableEq, Repr

/-- The staged length that the request would start from (R67). -/
def Start.length : Start → Nat
  | .entry _ body => body.length
  | .firstTouch _ length _ => length

/-- The staged body at the start of the claim (R27). -/
def Start.body : Start → StagedBody
  | .entry _ body => body
  | .firstTouch _ length pages => StagedBody.ofBase length pages

/-- The pool at the start of the claim: a first touch raises the count of every page of the base (R27). -/
def Start.pool (pool : Pool) : Start → Pool
  | .entry _ _ => pool
  | .firstTouch _ _ pages => pool.gainAll pages

/-- The operation of the entry once its claim is granted (R75). -/
def Start.op (body : StagedBody) : Start → IntentOp
  | .entry (.created attrs _) _ => .created attrs (.blob (some body))
  | .entry (.written base _) _ => .written base body
  | .entry op _ => op
  | .firstTouch base _ _ => .written base body

/-- The checks of WRITE and RESIZE on the entry or the record of a tag, up to the range of the offset
(R67 steps 3a, 3b and 4b; R69, R70, R74, R76). -/
def findStart (p : Port) (tag : Tag) (s : State) : Except Refused Start :=
  let intents := (s.txns.get p).intents
  match findIntent intents tag with
  | some ⟨_, .created attrs (.blob body)⟩ =>
    .ok (.entry (.created attrs (.blob body)) (body.getD StagedBody.empty))
  | some ⟨_, .written base body⟩ => .ok (.entry (.written base body) body)
  | some ⟨_, .created _ (.counter _)⟩ => .error (.plain .wrongKind)
  | some ⟨_, .added _ _⟩ => .error (.plain .wrongKind)
  | some ⟨_, .deleted _⟩ => .error (.plain .deleted)
  | none =>
    if Config.maxIntents ≤ intents.length then .error (.plain .limit)
    else
      match lookup s.directory tag with
      | .absent | .deletedHead _ => .error (.plain .absent)
      | .liveHead v =>
        match v.content with
        | .blob attrs length pages _ =>
          if permitted s p attrs then .ok (.firstTouch v.gen length pages) else .error (.plain .denied)
        | .counter .. => .error (.plain .wrongKind)
        | .tombstone => .error (.plain .absent)

/-- The claim of a WRITE or RESIZE on its start, and the entry changed or appended when it is granted
(R75, R76). -/
def claimBody (p : Port) (tag : Tag) (start : Start)
    (change : Pool → StagedBody → Option (Pool × StagedBody)) (s : State) : Except Refused State :=
  match stagedClaim p s.pool start.body (change (start.pool s.pool) start.body) with
  | .error detail => .error (.noSpace detail)
  | .ok (pool, body) =>
    let intents := (s.txns.get p).intents
    let intents' := match start with
      | .entry _ _ => changeIntent intents tag (start.op body)
      | .firstTouch _ _ _ => intents ++ [⟨tag, start.op body⟩]
    .ok (withIntents p intents' { s with pool := pool })

/-- WRITE's checks and effect in OPEN (R67, R74, R75). `count` is the request's count field and `data`
the bytes that follow it. -/
def actWrite (p : Port) (tag : Tag) (offset count : Nat) (data : List Byte) (s : State) : Except Refused State :=
  if recordTag tag && decide (1 ≤ count) && decide (count ≤ Config.maxWrite) then
    match findStart p tag s with
    | .error e => .error e
    | .ok start =>
      if offset ≤ start.length ∧ offset + count ≤ Config.maxBody then
        claimBody p tag start (writeBody offset (data.take count)) s
      else .error (.plain .range)
  else .error (.plain .range)

/-- RESIZE's checks and effect in OPEN (R67, R76). -/
def actResize (p : Port) (tag : Tag) (length : Nat) (s : State) : Except Refused State :=
  if recordTag tag && decide (length ≤ Config.maxBody) then
    match findStart p tag s with
    | .error e => .error e
    | .ok start => claimBody p tag start (resizeBody length) s
  else .error (.plain .range)

/-! ### ADD and DELETE -/

/-- A delta held within the signed 32-bit range (R77). -/
def holdDelta (x : Int) : Int := max (-2147483648) (min 2147483647 x)

/-- ADD's checks and effect in OPEN (R67, R77). -/
def actAdd (p : Port) (tag : Tag) (delta : Int) (s : State) : Except Refused State :=
  let intents := (s.txns.get p).intents
  if recordTag tag then
    match findIntent intents tag with
    | some ⟨_, .created attrs (.counter d)⟩ =>
      .ok (withIntents p (changeIntent intents tag (.created attrs (.counter (holdDelta (d + delta))))) s)
    | some ⟨_, .added base d⟩ =>
      .ok (withIntents p (changeIntent intents tag (.added base (holdDelta (d + delta)))) s)
    | some ⟨_, .created _ (.blob _)⟩ => .error (.plain .wrongKind)
    | some ⟨_, .written _ _⟩ => .error (.plain .wrongKind)
    | some ⟨_, .deleted _⟩ => .error (.plain .deleted)
    | none =>
      if Config.maxIntents ≤ intents.length then .error (.plain .limit)
      else
        match lookup s.directory tag with
        | .absent | .deletedHead _ => .error (.plain .absent)
        | .liveHead v =>
          match v.content with
          | .counter attrs _ _ =>
            if permitted s p attrs then .ok (withIntents p (intents ++ [⟨tag, .added v.gen delta⟩]) s)
            else .error (.plain .denied)
          | .blob .. => .error (.plain .wrongKind)
          | .tombstone => .error (.plain .absent)
  else .error (.plain .range)

/-- DELETE's checks and effect in OPEN (R67, R78, R79). -/
def actDelete (p : Port) (tag : Tag) (s : State) : Except Refused State :=
  let intents := (s.txns.get p).intents
  if recordTag tag then
    match findIntent intents tag with
    | some ⟨_, .written base body⟩ =>
      .ok (withIntents p (changeIntent intents tag (.deleted base))
        { s with pool := releaseOp p (.written base body) s.pool })
    | some ⟨_, .added base _⟩ => .ok (withIntents p (changeIntent intents tag (.deleted base)) s)
    | some ⟨_, .created attrs staged⟩ =>
      .ok (withIntents p (removeIntent intents tag)
        { s with pool := releaseOp p (.created attrs staged) s.pool })
    | some ⟨_, .deleted _⟩ => .error (.plain .deleted)
    | none =>
      if Config.maxIntents ≤ intents.length then .error (.plain .limit)
      else
        match lookup s.directory tag with
        | .absent | .deletedHead _ => .error (.plain .absent)
        | .liveHead v =>
          match v.attrs? with
          | some attrs =>
            if permitted s p attrs then .ok (withIntents p (intents ++ [⟨tag, .deleted v.gen⟩]) s)
            else .error (.plain .denied)
          | none => .error (.plain .absent)
  else .error (.plain .range)

/-- CREATE (R72, R73). -/
def takeCreate (p : Port) (tag : Tag) (kind writers persist : Byte) (s : State) : State × Answer :=
  staging p (actCreate p tag kind writers persist s) s
/-- WRITE (R74, R75). -/
def takeWrite (p : Port) (tag : Tag) (offset count : Nat) (data : List Byte) (s : State) : State × Answer :=
  staging p (actWrite p tag offset count data s) s
/-- RESIZE (R76). -/
def takeResize (p : Port) (tag : Tag) (length : Nat) (s : State) : State × Answer :=
  staging p (actResize p tag length s) s
/-- ADD (R77). -/
def takeAdd (p : Port) (tag : Tag) (delta : Int) (s : State) : State × Answer :=
  staging p (actAdd p tag delta s) s
/-- DELETE (R78, R79). -/
def takeDelete (p : Port) (tag : Tag) (s : State) : State × Answer := staging p (actDelete p tag s) s

/-! ### BEGIN, COMMIT, ABORT and TXN_STATUS -/

/-- BEGIN (R71). -/
def takeBegin (p : Port) (s : State) : State × Answer :=
  let ctx := s.txns.get p
  match ctx.state with
  | .none => (s.setTxn p ⟨.opened, [], loadIdle p s, .none, .none⟩, Answer.bare .ok)
  | .opened => (s.setTxn p { ctx with idle := loadIdle p s }, Answer.bare .txnOpen)
  | .queued | .applying | .detached => (s, Answer.bare .busy)

/-- COMMIT (R80, R81). -/
def takeCommit (p : Port) (s : State) : State × Answer :=
  let ctx := s.txns.get p
  match ctx.state with
  | .none => (s, Answer.bare .noTxn)
  | .opened =>
    if ctx.intents.isEmpty then
      (s.setTxn p { ctx with state := .none, idle := none, outcome := .committed s.g }, Answer.bare .ok)
    else
      ({ s with commitQueue := s.commitQueue ++ [p] }.setTxn p { ctx with state := .queued, idle := none },
        Answer.bare .queued)
  | .queued | .applying | .detached => (s, Answer.bare .busy)

/-- The commit queue without a port's entry; the others keep their order (R95). -/
def leaveQueue (p : Port) (s : State) : State :=
  { s with commitQueue := s.commitQueue.filter (fun q => q != p) }

/-- ABORT (R83 to R85). -/
def takeAbort (p : Port) (s : State) : State × Answer :=
  match (s.txns.get p).state with
  | .none => (s, Answer.bare .noTxn)
  | .opened => (discardTxn p .aborted s, Answer.bare .ok)
  | .queued => (discardTxn p .withdrawn (leaveQueue p s), Answer.bare .ok)
  | .applying | .detached => (s, Answer.bare .tooLate)

/-- The payload of TXN_STATUS (R90, Table 10-7). -/
def txnStatusPayload (p : Port) (s : State) : List Byte :=
  let ctx := s.txns.get p
  let detail := match ctx.state with
    | .opened => ctx.refusal.code
    | .none | .queued | .applying | .detached => ctx.outcome.detailCode
  [ctx.state.code, ctx.outcome.name.code, detail, natByte ctx.intents.length]
    ++ natBe16 (s.pool.stagedOwned.get p) ++ be16 ctx.outcome.conflictTag ++ be32 ctx.outcome.gen

/-- TXN_STATUS (R90): in OPEN it reloads the idle timer, and it changes nothing else. -/
def takeTxnStatus (p : Port) (s : State) : State × Answer :=
  let ctx := s.txns.get p
  let answer : Answer := ⟨.ok, txnStatusPayload p s⟩
  match ctx.state with
  | .opened => (s.setTxn p { ctx with idle := loadIdle p s }, answer)
  | .none | .queued | .applying | .detached => (s, answer)

/-! ### The idle timer and port reset -/

/-- The idle timer's expiry: the bodies are released and the outcome written, then the event and the flag
are delivered (R87). -/
def expireIdle (p : Port) (s : State) : State :=
  let ctx := s.txns.get p
  match ctx.state with
  | .opened =>
    if ctx.idle.due then
      deliver p ⟨.txnTimeout, 0#16, 0#32, .outcome .timedOut⟩ flagTxnEnded (discardTxn p .timedOut s)
    else s
  | .none | .queued | .applying | .detached => s

/-- A port reset of a transaction context and its queue entry (R92, R95). -/
def resetTxn (p : Port) (s : State) : State :=
  let common (t : State) (state : CtxState) : State :=
    t.setTxn p { t.txns.get p with state := state, idle := none, refusal := .none, outcome := .none }
  match (s.txns.get p).state with
  | .none => common s .none
  | .opened => common (discardTxn p .none s) .none
  | .queued => common (discardTxn p .none (leaveQueue p s)) .none
  | .applying => common s .detached
  | .detached => common s .detached

/-! ### Request arguments (Table 10-3) -/

/-- BEGIN carries no argument. -/
def requestBegin : Taking := fun p _ s => takeBegin p s
/-- CREATE carries a tag, a kind, writers and a persist attribute. -/
def requestCreate : Taking := fun p args s =>
  takeCreate p (argTag args) (argByte args 2) (argByte args 3) (argByte args 4) s
/-- WRITE carries a tag, an offset, a count and data bytes. -/
def requestWrite : Taking := fun p args s =>
  takeWrite p (argTag args) (arg16 args 2) (argByte args 4).toNat (args.drop 5) s
/-- RESIZE carries a tag and a length. -/
def requestResize : Taking := fun p args s => takeResize p (argTag args) (arg16 args 2) s
/-- ADD carries a tag and a signed delta. -/
def requestAdd : Taking := fun p args s => takeAdd p (argTag args) (argDelta args) s
/-- DELETE carries a tag. -/
def requestDelete : Taking := fun p args s => takeDelete p (argTag args) s
/-- COMMIT carries no argument. -/
def requestCommit : Taking := fun p _ s => takeCommit p s
/-- ABORT carries no argument. -/
def requestAbort : Taking := fun p _ s => takeAbort p s
/-- TXN_STATUS carries no argument. -/
def requestTxnStatus : Taking := fun p _ s => takeTxnStatus p s

/-! ### Meanings -/

/-- BEGIN (R71). -/
def execBeginTxn (p : Port) (s : State) : Out := .next (endRequest .beginTxn requestBegin p s)

/-- CREATE (R72). -/
def execCreate (p : Port) (s : State) : Out := .next (endRequest .create requestCreate p s)

/-- WRITE (R74). -/
def execWrite (p : Port) (s : State) : Out := .next (endRequest .write requestWrite p s)

/-- RESIZE (R76). -/
def execResize (p : Port) (s : State) : Out := .next (endRequest .resize requestResize p s)

/-- ADD (R77). -/
def execAdd (p : Port) (s : State) : Out := .next (endRequest .add requestAdd p s)

/-- DELETE (R78, R79). -/
def execDelete (p : Port) (s : State) : Out := .next (endRequest .delete requestDelete p s)

/-- COMMIT (R80, R81). -/
def execCommit (p : Port) (s : State) : Out := .next (endRequest .commit requestCommit p s)

/-- ABORT (R83 to R85). -/
def execAbort (p : Port) (s : State) : Out := .next (endRequest .abort requestAbort p s)

/-- TXN_STATUS (R90). -/
def execTxnStatus (p : Port) (s : State) : Out := .next (endRequest .txnStatus requestTxnStatus p s)

/-- IDLE_TIMER_EXPIRY (R87). -/
def execIdleTimerExpiry (p : Port) (s : State) : Out := .next (expireIdle p s)

end Sys2Proof.Machine
end

