-- ==== Sys2Proof/Machine/Commit.lean ====
section
/-! DEFINITION. The commit engine (chapter 5): TAKE, PAGE_DIGESTED and PUBLISH. -/

namespace Sys2Proof.Machine

/-! ### Validation (R98 to R102) -/

/-- The check of one intent at TAKE: none when it passes, otherwise its conflict (R99, R100, R101). -/
def intentConflict (dir : List DirSlot) (i : Intent) : Option ConflictDetail :=
  match i.op with
  | .created _ _ =>
    match lookup dir i.tag with
    | .liveHead _ => some .alreadyExists
    | .absent | .deletedHead _ => none
  | .written base _ | .deleted base =>
    match lookup dir i.tag with
    | .absent => some .changed
    | .deletedHead v | .liveHead v => if v.gen = base then none else some .changed
  | .added _ _ =>
    match lookup dir i.tag with
    | .absent | .deletedHead _ => some .gone
    | .liveHead v => if v.kind? = some .counter then none else some .changed

/-- The first intent in list order that fails, as the outcome it gives (Table 5-2, step 2). -/
def firstConflict (dir : List DirSlot) : List Intent → Option TxnOutcome
  | [] => none
  | i :: rest =>
    match intentConflict dir i with
    | some detail => some (.conflict i.tag detail)
    | none => firstConflict dir rest

/-- The directory slots that a transaction needs: its CREATED intents whose tag has no slot (R102). -/
def slotsNeeded (dir : List DirSlot) (intents : List Intent) : Nat :=
  intents.countP (fun i =>
    match i.op with
    | .created _ _ => lookup dir i.tag == .absent
    | .written .. | .added .. | .deleted .. => false)

/-- Validation in the order of Table 5-2: none when the transaction passes, otherwise its outcome. -/
def validate (s : State) (intents : List Intent) : Option TxnOutcome :=
  if s.g = 0xFFFFFFFF#32 then some .exhausted
  else
    match firstConflict s.directory intents with
    | some o => some o
    | none =>
      if freeEntries s < intents.length then some (.noSpace .versions)
      else if freeSlots s < slotsNeeded s.directory intents then some (.noSpace .slots)
      else none

/-! ### TAKE (R97) -/

/-- The bodies to digest, in intent-list order; a body of length 0 takes no happening (R105). -/
def digestsOf (intents : List Intent) : List Digest :=
  intents.filterMap (fun i =>
    match i.op.body? with
    | none => none
    | some body => if body.pages.isEmpty then none else some ⟨i.tag, body.pageNos, body.length, crcStart⟩)

/-- The event COMMIT_DONE for an outcome (R103, R114, R123). -/
def commitDone (o : TxnOutcome) : Event := ⟨.commitDone, 0#16, o.gen, .outcome o.name⟩

/-- The reject path (R103). -/
def rejectTxn (p : Port) (o : TxnOutcome) (s : State) : State :=
  deliver p (commitDone o) flagTxnEnded (discardTxn p o s)

/-- The reservation of what the publish will need, and DIGESTING (R102). -/
def reserveTxn (p : Port) (s : State) : State :=
  let intents := (s.txns.get p).intents
  let commit : Commit :=
    ⟨p, intents.length, slotsNeeded s.directory intents, digestsOf intents, []⟩
  { s with engine := .digesting commit }

/-- TAKE of the queue's head by the IDLE engine (R96, R97). -/
def takeHead (s : State) : State :=
  match s.engine, s.commitQueue with
  | .idle, p :: rest =>
    let t := { s with commitQueue := rest }.setTxn p { s.txns.get p with state := .applying }
    match validate t (t.txns.get p).intents with
    | some o => rejectTxn p o t
    | none => reserveTxn p t
  | .idle, [] => s
  | .digesting _, _ => s

/-! ### DIGEST (R105) -/

/-- One page of a body fed into its running CRC: all its bytes, or those up to the body's length. -/
def Digest.feed (pool : Pool) (d : Digest) (page : PageNo) (rest : List PageNo) : Digest :=
  { d with
    pages := rest
    bytesLeft := d.bytesLeft - Config.pageSize
    crc := crcFeed d.crc ((pool.page page).take d.bytesLeft) }

/-- The commit in progress after one page digested; the CRC of a body whose last page has been digested is
kept for the publish. -/
def Commit.digestPage (pool : Pool) (c : Commit) : Commit :=
  match c.todo with
  | [] => c
  | d :: rest =>
    match d.pages with
    | [] => { c with todo := rest, done := c.done ++ [(d.tag, d.crc)] }
    | page :: pages =>
      let fed := d.feed pool page pages
      if pages.isEmpty then { c with todo := rest, done := c.done ++ [(d.tag, fed.crc)] }
      else { c with todo := fed :: rest }

/-- PAGE_DIGESTED (R105). -/
def digestPage (s : State) : State :=
  match s.engine with
  | .idle => s
  | .digesting c => { s with engine := .digesting (c.digestPage s.pool) }

/-! ### PUBLISH (R110 to R116) -/

/-- The digest of a tag's new body, 0xFFFF for a body of length 0 (R105). -/
def digestOf (done : List (Tag × Crc)) (tag : Tag) : Crc :=
  match done.find? (fun x => x.1 == tag) with
  | none => crcStart
  | some x => x.2

/-- A counter's new value: the sum held within 0 to 0xFFFFFFFF (R112). -/
def counterSum (base : BitVec 32) (delta : Int) : BitVec 32 :=
  BitVec.ofInt 32 (max 0 (min 0xFFFFFFFF ((base.toNat : Int) + delta)))

/-- A COUNTER's contents with the crc over its value (R7, R112). -/
def counterContent (attrs : Attrs) (value : BitVec 32) : Content := .counter attrs value (crc16 (be32 value))

/-- The attributes of the record's previous newest version. A WRITTEN or ADDED intent that has passed TAKE
always finds one (R104); the model reads an empty writers set and VOLATILE where there is none. -/
def carriedAttrs (dir : List DirSlot) (tag : Tag) : Attrs :=
  match lookup dir tag with
  | .liveHead v => v.attrs?.getD ⟨0#4, .volatile⟩
  | .absent | .deletedHead _ => ⟨0#4, .volatile⟩

/-- The value of the record's previous newest version (R112). -/
def carriedValue (dir : List DirSlot) (tag : Tag) : BitVec 32 :=
  match lookup dir tag with
  | .liveHead v => v.value
  | .absent | .deletedHead _ => 0#32

/-- The contents that an intent installs (Table 5-4). -/
def installedContent (dir : List DirSlot) (done : List (Tag × Crc)) (i : Intent) : Content :=
  match i.op with
  | .created attrs (.blob none) => .blob attrs 0 [] crcStart
  | .created attrs (.blob (some body)) => .blob attrs body.length body.pageNos (digestOf done i.tag)
  | .created attrs (.counter delta) => counterContent attrs (counterSum 0#32 delta)
  | .written _ body => .blob (carriedAttrs dir i.tag) body.length body.pageNos (digestOf done i.tag)
  | .added _ delta => counterContent (carriedAttrs dir i.tag) (counterSum (carriedValue dir i.tag) delta)
  | .deleted _ => .tombstone

/-- One intent installs its version with the new G, and hands its staged list over (R110, R111, R34). -/
def installIntent (p : Port) (done : List (Tag × Crc)) (s : State) (i : Intent) : State :=
  { s with
    directory := install s.directory i.tag ⟨s.g, installedContent s.directory done i⟩
    pool := match i.op.body? with
      | none => s.pool
      | some body => s.pool.handOver p body }

/-- The kind of an intent's record event (Table 5-5). -/
def IntentOp.eventKind : IntentOp → EventKind
  | .created _ _ => .created
  | .written _ _ => .changed
  | .added _ _ => .changed
  | .deleted _ => .deleted

/-- The record event of an intent (R115). -/
def recordEvent (gen : Gen) (i : Intent) : Event := ⟨i.op.eventKind, i.tag, gen, .zero⟩

/-- The end of the committing context: for APPLYING the outcome, COMMIT_DONE and TXN_ENDED; for DETACHED
none of the three (R114). -/
def endCommitter (p : Port) (s : State) : State :=
  let ctx := s.txns.get p
  match ctx.state with
  | .applying =>
    deliver p (commitDone (.committed s.g)) flagTxnEnded (s.setTxn p { ctx with outcome := .committed s.g })
  | .none | .opened | .queued | .detached => s

/-- PUBLISH of the commit in progress, in the order of section 5.7 (R110, R113 to R116). -/
def publishCommit (c : Commit) (s : State) : State :=
  let intents := (s.txns.get c.port).intents
  let raised := { s with g := s.g + 1#32 }
  let installed := intents.foldl (installIntent c.port c.done) raised
  let retired := retireOnPublish (intents.map Intent.tag) installed
  let told := endCommitter c.port retired
  let events := intents.foldl (fun t i => deliverRecordEvent (recordEvent t.g i) t) told
  { events with engine := .idle }.setTxn c.port
    { events.txns.get c.port with state := .none, intents := [], idle := none }

/-- PUBLISH: the engine's next happening once every page has been digested (R105, R110). -/
def publishHead (s : State) : State :=
  match s.engine with
  | .idle => s
  | .digesting c => if c.todo.isEmpty then publishCommit c s else s

/-! ### Meanings -/

/-- TAKE (R97). -/
def execTake (s : State) : Out := .next (takeHead s)

/-- PAGE_DIGESTED (R105). -/
def execPageDigested (s : State) : Out := .next (digestPage s)

/-- PUBLISH (R110 to R116). -/
def execPublish (s : State) : Out := .next (publishHead s)

end Sys2Proof.Machine
end

