-- ==== Sys2Proof/Machine/Watches.lean ====
section
/-! DEFINITION. The notification requests (chapter 6): WATCH, UNWATCH, EVENT_PEEK, EVENT_ACK, FLAG_CLEAR. -/

namespace Sys2Proof.Machine

/-- The payload of WATCH and UNWATCH: the tags on the list (R120, R121). -/
def watchCount (n : Notify) : List Byte := [natByte n.watches.length]

/-- WATCH (R120). -/
def takeWatch (p : Port) (tag : Tag) (s : State) : State × Answer :=
  let n := s.notes.get p
  if recordTag tag then
    if tag ∈ n.watches then (s, ⟨.ok, watchCount n⟩)
    else if Config.maxWatches ≤ n.watches.length then (s, ⟨.limit, watchCount n⟩)
    else
      let n' := { n with watches := n.watches ++ [tag] }
      (s.setNote p n', ⟨.ok, watchCount n'⟩)
  else (s, ⟨.range, watchCount n⟩)

/-- UNWATCH (R121): 0xFFFF names every tag. -/
def takeUnwatch (p : Port) (tag : Tag) (s : State) : State × Answer :=
  let n := s.notes.get p
  if tag = 0xFFFF#16 then
    let n' := { n with watches := [] }
    (s.setNote p n', ⟨.ok, watchCount n'⟩)
  else if tag ∈ n.watches then
    let n' := { n with watches := n.watches.filter (fun t => t != tag) }
    (s.setNote p n', ⟨.ok, watchCount n'⟩)
  else (s, ⟨.absent, watchCount n⟩)

/-- The payload of EVENT_PEEK (Table 10-8). -/
def peekPayload (n : Notify) : List Byte :=
  [natByte n.queue.length, natByte n.lost, byteOfFlags n.flags] ++ n.queue.flatMap Event.bytes

/-- EVENT_PEEK (R127). -/
def takeEventPeek (p : Port) (s : State) : State × Answer := (s, ⟨.ok, peekPayload (s.notes.get p)⟩)

/-- EVENT_ACK of a count (R128). -/
def takeEventAck (p : Port) (count : Nat) (s : State) : State × Answer :=
  let n := (s.notes.get p).acknowledge count
  (s.setNote p n, ⟨.ok, [natByte n.queue.length]⟩)

/-- FLAG_CLEAR of a flag set byte (R131). -/
def takeFlagClear (p : Port) (b : Byte) (s : State) : State × Answer :=
  let n := s.notes.get p
  if flagByteOk b then
    let n' := n.clear (flagsOfByte b)
    (s.setNote p n', ⟨.ok, [byteOfFlags n'.flags]⟩)
  else (s, ⟨.range, [byteOfFlags n.flags]⟩)

/-! ### Request arguments (Table 10-3) -/

/-- WATCH carries a tag. -/
def requestWatch : Taking := fun p args s => takeWatch p (argTag args) s
/-- UNWATCH carries a tag. -/
def requestUnwatch : Taking := fun p args s => takeUnwatch p (argTag args) s
/-- EVENT_PEEK carries no argument. -/
def requestEventPeek : Taking := fun p _ s => takeEventPeek p s
/-- EVENT_ACK carries a count. -/
def requestEventAck : Taking := fun p args s => takeEventAck p (argByte args 0).toNat s
/-- FLAG_CLEAR carries a flag set. -/
def requestFlagClear : Taking := fun p args s => takeFlagClear p (argByte args 0) s

/-! ### Meanings -/

/-- FLAG_CLEAR (R131). -/
def execFlagClear (p : Port) (s : State) : Out := .next (endRequest .flagClear requestFlagClear p s)

/-- WATCH (R120). -/
def execWatch (p : Port) (s : State) : Out := .next (endRequest .watch requestWatch p s)

/-- UNWATCH (R121). -/
def execUnwatch (p : Port) (s : State) : Out := .next (endRequest .unwatch requestUnwatch p s)

/-- EVENT_PEEK (R127). -/
def execEventPeek (p : Port) (s : State) : Out := .next (endRequest .eventPeek requestEventPeek p s)

/-- EVENT_ACK (R128). -/
def execEventAck (p : Port) (s : State) : Out := .next (endRequest .eventAck requestEventAck p s)

end Sys2Proof.Machine
end

