-- ==== Sys2Proof/Machine/Link.lean ====
section
/-! DEFINITION. The flash link and the external flash (chapter 7, sections 7.2 and 7.3): the operations the
image controller sends, what they do to the flash, and the layouts of the image header and entries. -/

namespace Sys2Proof.Machine

/-! ### The flash (R137) -/

/-- What an erased or unlisted flash byte reads as (R137). -/
def erasedByte : Byte := 0xFF#8

/-- Bytes read from the flash. -/
def Flash.bytesAt (f : Flash) (addr n : Nat) : List Byte := readBlock erasedByte f.mem addr n

/-- The flash array after an erase of the 4 KiB sector at an address: every byte of it reads 0xFF. -/
def eraseSector (m : Memory) (addr : Nat) : Memory :=
  m.filter (fun c => decide (c.1 < addr) || decide (addr + Config.sectorSize ≤ c.1))

/-- The flash array after a program of bytes at an address: bits change from 1 to 0 only (R137). -/
def programUnit (m : Memory) (addr : Nat) (data : List Byte) : Memory :=
  writeBlock erasedByte m addr (List.zipWith (fun old new => old &&& new) (readBlock erasedByte m addr data.length) data)

/-- The flash array once a running operation has ended: `left` when given, as far as the region reaches,
and otherwise what the operation is for. -/
def FlashRun.land (m : Memory) (left : Option (List Byte)) : FlashRun → Memory
  | .erase addr =>
    match left with
    | none => eraseSector m addr
    | some bs => writeBlock erasedByte m addr (bs.take Config.sectorSize)
  | .program addr data =>
    match left with
    | none => programUnit m addr data
    | some bs => writeBlock erasedByte m addr (bs.take Config.unitSize)

/-- The flash once the operation running in it, if any, has ended (R138, R139, R140). -/
def Flash.settle (f : Flash) (left : Option (List Byte)) : Flash :=
  match f.running with
  | none => f
  | some run => ⟨run.land f.mem left, none⟩

/-- The flash at a loss of power: an operation running in it is cut off, and its region holds `left`, or
what it held before (R161). -/
def Flash.cutOff (f : Flash) (left : Option (List Byte)) : Flash :=
  match f.running, left with
  | none, _ => f
  | some _, none => ⟨f.mem, none⟩
  | some run, some bs => ⟨run.land f.mem (some bs), none⟩

/-! ### What the link sends (R137, Table 7-2) -/

/-- A 24-bit address, most significant byte first. -/
def addr24 (addr : Nat) : List Byte := [natByte (addr / 65536), natByte (addr / 256), natByte addr]

/-- The timer of the operation in progress (R138 to R140). -/
def FlashOp.timer : FlashOp → Timer
  | .poll _ t | .erase _ t | .program _ _ t => t
  | .none | .readback _ _ | .loadRead => Option.none

/-- The operation's timer after a tick (R187). -/
def FlashOp.tick : FlashOp → FlashOp
  | .poll next t => .poll next t.tick
  | .erase addr t => .erase addr t.tick
  | .program addr data t => .program addr data t.tick
  | .none => .none
  | .readback addr data => .readback addr data
  | .loadRead => .loadRead

/-! ### Image slots (R142) -/

/-- The base address of an image slot. -/
def ImageSlot.base : ImageSlot → Nat
  | .slot0 => 0x000000
  | .slot1 => 0x010000

/-- The slot offset at which the image stream begins. -/
def streamStart : Nat := 256

/-- The address of sector k of a slot. -/
def sectorAddr (i : ImageSlot) (k : Nat) : Nat := i.base + Config.sectorSize * k

/-- The address of stream unit u of a slot (R154). -/
def unitAddr (i : ImageSlot) (u : Nat) : Nat := i.base + streamStart + Config.unitSize * u

/-- Bytes completed with 0xFF to a whole program unit (R142, R143). -/
def padUnit (bs : List Byte) : List Byte := bs ++ List.replicate (Config.unitSize - bs.length) erasedByte

/-- The transactions that the flash operation in progress puts on the link, each the bytes sent while
select is asserted (Table 7-2): write enable precedes an erase or a program, whose end read status
watches (R139, R140), and each read has its own poll (R138). The load reads both header units (R146) and then the
entries; that one read data takes one entry, head and body together, is the model's choice, and the read of
slot 0's header, which has no row of its own, goes out before the poll of slot 1's (log entry 9). No operation in progress sends nothing: select is released. -/
def linkSends (s : State) : List (List Byte) :=
  match s.image.op with
  | .none => []
  | .poll next _ =>
    match next, s.image.loader with
    | .loadRead, .header1 => [0x03#8 :: addr24 ImageSlot.slot0.base, [0x05#8]]
    | .loadRead, _ | .erase, _ | .program, _ | .readback _ _, _ => [[0x05#8]]
  | .erase addr _ => [[0x06#8], 0x20#8 :: addr24 addr, [0x05#8]]
  | .program addr data _ => [[0x06#8], 0x02#8 :: (addr24 addr ++ data), [0x05#8]]
  | .readback addr _ => [0x03#8 :: addr24 addr]
  | .loadRead =>
    match s.image.loader with
    | .idle | .header0 => []
    | .header1 => [0x03#8 :: addr24 ImageSlot.slot1.base]
    | .checking c | .installing c => [0x03#8 :: addr24 (c.slot.base + c.offset)]

/-- FSEL_N is driven high and FCLK low, with nothing on the link: while device reset is in force, and whenever
no flash operation is in progress (R137, R185; log entry 11). -/
def linkReleased (s : State) : Bool := (linkSends s).isEmpty

/-! ### The image header (R143, R192, Table 10-11) -/

/-- "EJCR". -/
def imageMagic : List Byte := [0x45#8, 0x4A#8, 0x43#8, 0x52#8]

/-- The header fields from magic through body bytes, offsets 0 to 18. -/
def ImageHeader.fields (h : ImageHeader) : List Byte :=
  imageMagic ++ [0x01#8] ++ be32 h.sequence ++ be32 h.gen ++ natBe16 h.records ++ be32 (BitVec.ofNat 32 h.bodyBytes)

/-- The header, offsets 0 to 20. -/
def ImageHeader.bytes (h : ImageHeader) : List Byte := h.fields ++ be16 (crc16 h.fields)

/-- The validity of a header unit and its fields (R144). -/
def parseHeader (bs : List Byte) : Option ImageHeader :=
  if bs.take 4 = imageMagic ∧ fieldAt bs 4 1 = 1
      ∧ fieldAt bs 19 2 = (crc16 (bs.take 19)).toNat then
    some ⟨BitVec.ofNat 32 (fieldAt bs 5 4), BitVec.ofNat 32 (fieldAt bs 9 4), fieldAt bs 13 2, fieldAt bs 15 4⟩
  else none

/-! ### Record entries (R142, R192, Table 10-12) -/

/-- A record entry read from a slot whose own tests it has passed. -/
structure LoadEntry where
  tag : Tag
  kind : Kind
  attrs : Attrs
  length : Nat
  crc : Crc
  body : List Byte
deriving DecidableEq, Repr

/-- The bytes of the entry from its head to the end of its body. -/
def LoadEntry.size (e : LoadEntry) : Nat := 8 + e.length

/-- Reading the entry at a slot offset and testing it by Table 7-4, but for the order of tags and the
totals, which need the entries before it: none when it is a ground for rejecting the slot (R147). -/
def readEntry (f : Flash) (i : ImageSlot) (offset : Nat) : Option LoadEntry :=
  if Config.imageSlotSize < offset + 8 then none
  else
    let head := f.bytesAt (i.base + offset) 8
    let tag : Tag := BitVec.ofNat 16 (fieldAt head 0 2)
    let attributes := argByte head 2
    let length := fieldAt head 4 2
    let crc : Crc := BitVec.ofNat 16 (fieldAt head 6 2)
    if Config.imageSlotSize < offset + 8 + length then none
    else
      match Kind.ofCode (attributes >>> 4), Persist.ofCode (attributes &&& 0x0F#8), writersOfByte (argByte head 3) with
      | some kind, some persist, some writers =>
        let lengthOk := match kind with
          | .counter => length == 4
          | .blob => decide (length ≤ Config.maxBody)
        if recordTag tag && lengthOk then
          let body := f.bytesAt (i.base + offset + 8) length
          if crc16 body = crc then some ⟨tag, kind, ⟨writers, persist⟩, length, crc, body⟩ else none
        else none
      | _, _, _ => none

/-- The order test: the tag is above the tag of the entry before it (R147). -/
def tagRises (last : Option Tag) (tag : Tag) : Bool :=
  match last with
  | none => true
  | some t => decide (t < tag)

end Sys2Proof.Machine
end

