-- ==== Sys2Proof/Machine/Checkpoint.lean ====
section
/-! DEFINITION. The checkpoint (chapter 7, sections 7.5 and 7.6): CHECKPOINT, CHECKPOINT_CANCEL and the
happenings of its flash operations. -/

namespace Sys2Proof.Machine

/-! ### The image stream (R152, R154) -/

/-- The records that a checkpoint at a generation saves: visible there and PERSISTENT, in ascending tag
order (R152). -/
def savedRecords (dir : List DirSlot) (gen : Gen) : List (Tag × Version) :=
  (visibleRecords dir gen).filter (fun x =>
    match x.2.attrs? with
    | some a => a.persist == .persistent
    | none => false)

/-- The entry of a saved record: head and body (R142). -/
def imageEntry (pool : Pool) (x : Tag × Version) : List Byte :=
  match x.2.head? x.1 with
  | some head => head ++ x.2.body pool
  | none => []

/-- The image stream: the entries back to back (R142). -/
def imageStream (pool : Pool) (records : List (Tag × Version)) : List Byte := records.flatMap (imageEntry pool)

/-- The bytes of the image stream: 8 for each head and the lengths. -/
def streamLength (records : List (Tag × Version)) : Nat := (records.map (fun x => 8 + x.2.length)).sum

/-- The records whose entries begin within the first `room` bytes of the stream: those placed once that
much of it has been filled (R154). -/
def placedWithin : Nat → List (Tag × Version) → List (Tag × Version)
  | _, [] => []
  | room, x :: rest => if room = 0 then [] else x :: placedWithin (room - (8 + x.2.length)) rest

/-- The generation of the checkpoint's snapshot, held by slot 4 (R136). -/
def checkpointGen (s : State) : Gen := s.slot4.getD 0#32

/-- The records of the checkpoint in progress. -/
def checkpointRecords (s : State) : List (Tag × Version) := savedRecords s.directory (checkpointGen s)

/-- The bytes of stream unit u, completed with 0xFF (R154). -/
def streamUnit (s : State) (u : Nat) : List Byte :=
  padUnit (((imageStream s.pool (checkpointRecords s)).drop (Config.unitSize * u)).take Config.unitSize)

/-- The checkpoint once unit u has been filled: the tag position past the last record placed and the
totals of the records placed (R154). -/
def fillUnit (s : State) (c : Checkpoint) (u : Nat) (position : Tag) : Checkpoint :=
  let placed := placedWithin (Config.unitSize * (u + 1)) (checkpointRecords s)
  let position' := match placed.getLast? with
    | none => position
    | some x => x.1 + 1#16
  { c with
    stage := .writing u position'
    records := placed.length
    bodyBytes := (placed.map (fun x => x.2.length)).sum }

/-- The header that the seal writes (R155). -/
def sealHeader (s : State) (c : Checkpoint) : ImageHeader :=
  ⟨s.image.sequence + 1#32, checkpointGen s, c.records, c.bodyBytes⟩

/-! ### The end of a checkpoint (R156) -/

/-- IMAGE_DONE and the IMAGE flag to every privileged port (R156). -/
def deliverImageDone (e : Event) (s : State) : State :=
  { s with notes := s.notes.mapPorts (fun p n => if privileged s p then (n.arrive e).raise flagImage else n) }

/-- Every end of a checkpoint, in the order of R156. -/
def endCheckpoint (r : ImageResult) (s : State) : State :=
  let gen := checkpointGen s
  let stopped := { s with image := { s.image with checkpoint := none, op := .none } }
  let released := retireOnRelease { stopped with slot4 := none }
  let recorded := { released with image := { released.image with last := some r } }
  deliverImageDone ⟨.imageDone, 0#16, gen, .image r⟩ recorded

/-- The end SAVED: the target becomes current and the sequence rises by 1 first (R155, R156). -/
def endSaved (c : Checkpoint) (s : State) : State :=
  endCheckpoint .saved
    { s with image := { s.image with current := some c.target, sequence := s.image.sequence + 1#32 } }

/-- The cause of a failed operation or poll by stage (R138, R153 to R155). -/
def stageCause (c : Checkpoint) : Cause :=
  match c.stage with
  | .erasing _ => .eraseTimeout
  | .writing _ _ | .sealing => .programTimeout

/-! ### The operations of each stage -/

/-- A new checkpoint state and flash operation. -/
def withCheckpoint (c : Checkpoint) (op : FlashOp) (s : State) : State :=
  { s with image := { s.image with checkpoint := some c, op := op } }

/-- The poll that an operation begins with, its timer loaded (R138). -/
def pollFor (next : AfterPoll) : FlashOp := .poll next (Timer.load Config.pollTicks)

/-- The target of a checkpoint: slot 1 when the current slot is 0, slot 0 otherwise (R151). -/
def checkpointTarget (s : State) : ImageSlot :=
  match s.image.current with
  | some .slot0 => .slot1
  | some .slot1 | none => .slot0

/-- CHECKPOINT (R151); the device is READY when it is taken. -/
def takeCheckpoint (p : Port) (s : State) : State × Answer :=
  if privileged s p then
    match s.image.checkpoint with
    | some _ => (s, Answer.bare .busy)
    | none =>
      if s.image.sequence = 0xFFFFFFFF#32 then (s, Answer.bare .exhausted)
      else
        let target := checkpointTarget s
        (withCheckpoint ⟨.erasing 0, target, 0, 0⟩ (pollFor .erase) { s with slot4 := some s.g },
          ⟨.ok, target.code :: be32 (s.image.sequence + 1#32)⟩)
  else (s, Answer.bare .denied)

/-- CHECKPOINT_CANCEL (R159). -/
def takeCheckpointCancel (p : Port) (s : State) : State × Answer :=
  if privileged s p then
    match s.image.checkpoint with
    | none => (s, Answer.bare .idle)
    | some c =>
      match c.stage with
      | .erasing _ | .writing _ _ => (endCheckpoint .cancelled s, Answer.bare .ok)
      | .sealing => (s, Answer.bare .tooLate)
  else (s, Answer.bare .denied)

/-- A flash operation sent: it runs inside the flash until it ends there (R139, R140). -/
def sendRun (run : FlashRun) (s : State) : State := { s with flash := { s.flash with running := some run } }

/-- The sector erase of a checkpoint sent after its poll (R139, R153). -/
def sendErase (c : Checkpoint) (s : State) : State :=
  match c.stage with
  | .erasing k =>
    let addr := sectorAddr c.target k
    withCheckpoint c (.erase addr (Timer.load Config.eraseTicks)) (sendRun (.erase addr) s)
  | .writing _ _ | .sealing => s

/-- The page program of a checkpoint sent after its poll: the unit filled, or the header (R140, R154,
R155). -/
def sendProgram (c : Checkpoint) (s : State) : State :=
  match c.stage with
  | .writing u position =>
    let addr := unitAddr c.target u
    let data := streamUnit s u
    withCheckpoint (fillUnit s c u position) (.program addr data (Timer.load Config.programTicks))
      (sendRun (.program addr data) s)
  | .sealing =>
    let addr := c.target.base
    let data := padUnit (sealHeader s c).bytes
    withCheckpoint c (.program addr data (Timer.load Config.programTicks)) (sendRun (.program addr data) s)
  | .erasing _ => s

/-- The end of a sector's erase: the next sector, or WRITING, or SEALING for an empty stream (R153). -/
def eraseEnded (c : Checkpoint) (s : State) : State :=
  match c.stage with
  | .erasing k =>
    if k + 1 < Config.sectors then withCheckpoint { c with stage := .erasing (k + 1) } (pollFor .erase) s
    else if (checkpointRecords s).isEmpty then withCheckpoint { c with stage := .sealing } (pollFor .program) s
    else withCheckpoint { c with stage := .writing 0 0x0000#16 } (pollFor .program) s
  | .writing _ _ | .sealing => s

/-- A unit verified: the next unit, SEALING after the stream's last byte, or SAVED after the header
(R154, R155). -/
def unitVerified (c : Checkpoint) (s : State) : State :=
  match c.stage with
  | .writing u position =>
    if Config.unitSize * (u + 1) < streamLength (checkpointRecords s) then
      withCheckpoint { c with stage := .writing (u + 1) position } (pollFor .program) s
    else withCheckpoint { c with stage := .sealing } (pollFor .program) s
  | .sealing => endSaved c s
  | .erasing _ => s

/-- A readback completed: verified when the 256 bytes agree, otherwise FAILED, VERIFY (R141). -/
def readbackEnded (addr : Nat) (data : List Byte) (received : Option (List Byte)) (s : State) : State :=
  match s.image.checkpoint with
  | none => s
  | some c =>
    if received.getD (s.flash.bytesAt addr data.length) = data then unitVerified c s
    else endCheckpoint (.failed .verify) s

/-! ### The flash happenings of a checkpoint -/

/-- ERASE_DONE (R139). -/
def eraseDone (left : Option (List Byte)) (s : State) : State :=
  match s.image.op, s.image.checkpoint with
  | .erase _ _, some c => eraseEnded c { s with flash := s.flash.settle left }
  | _, _ => s

/-- ERASE_TIMER_EXPIRY (R139). -/
def expireErase (s : State) : State :=
  match s.image.op with
  | .erase _ t => if t.due then endCheckpoint (.failed .eraseTimeout) s else s
  | _ => s

/-- PROGRAM_DONE: the readback, which begins with its own poll, follows (R140, R138). -/
def programDone (left : Option (List Byte)) (s : State) : State :=
  match s.image.op with
  | .program addr data _ =>
    { s with
      flash := s.flash.settle left
      image := { s.image with op := pollFor (.readback addr data) } }
  | _ => s

/-- PROGRAM_TIMER_EXPIRY (R140). -/
def expireProgram (s : State) : State :=
  match s.image.op with
  | .program _ _ t => if t.due then endCheckpoint (.failed .programTimeout) s else s
  | _ => s

/-- READBACK_DONE: the read data that the readback's poll let proceed has ended (R138, R141). -/
def readbackDone (received : Option (List Byte)) (s : State) : State :=
  match s.image.op with
  | .readback addr data => readbackEnded addr data received s
  | _ => s

/-! ### Requests -/

/-- CHECKPOINT carries no argument. -/
def requestCheckpoint : Taking := fun p _ s => takeCheckpoint p s
/-- CHECKPOINT_CANCEL carries no argument. -/
def requestCheckpointCancel : Taking := fun p _ s => takeCheckpointCancel p s

/-! ### Meanings -/

/-- CHECKPOINT (R151). -/
def execCheckpoint (p : Port) (s : State) : Out := .next (endRequest .checkpoint requestCheckpoint p s)

/-- CHECKPOINT_CANCEL (R159). -/
def execCheckpointCancel (p : Port) (s : State) : Out := .next (endRequest .checkpointCancel requestCheckpointCancel p s)

/-- ERASE_DONE (R139, R153). -/
def execEraseDone (left : Option (List Byte)) (s : State) : Out := .next (eraseDone left s)

/-- ERASE_TIMER_EXPIRY (R139). -/
def execEraseTimerExpiry (s : State) : Out := .next (expireErase s)

/-- PROGRAM_DONE (R140). -/
def execProgramDone (left : Option (List Byte)) (s : State) : Out := .next (programDone left s)

/-- PROGRAM_TIMER_EXPIRY (R140). -/
def execProgramTimerExpiry (s : State) : Out := .next (expireProgram s)

/-- READBACK_DONE (R141, R154, R155). -/
def execReadbackDone (received : Option (List Byte)) (s : State) : Out := .next (readbackDone received s)

end Sys2Proof.Machine
end

