-- ==== Sys2Proof/Machine/Load.lean ====
section
/-! DEFINITION. The load at device reset (chapter 7, section 7.4): LOAD_HEADERS_READ, LOAD_ENTRY_CHECKED,
LOAD_ENTRY_INSTALLED, and the status polls of load and checkpoint. -/

namespace Sys2Proof.Machine

/-! ### The end of the load (R150) -/

/-- LOADED set on every port (R150, R134). -/
def raiseLoaded (s : State) : State := { s with notes := s.notes.mapPorts (fun _ n => n.raise flagLoaded) }

/-- The load ends: result, current slot and sequence are set, the device becomes READY, LOADED is set on
every port (R150, Table 7-6). -/
def endLoad (r : LoadResult) (current : Option ImageSlot) (sequence : Gen) (s : State) : State :=
  raiseLoaded { s with image := { s.image with
    device := .ready
    load := r
    loader := .idle
    current := current
    sequence := sequence
    op := .none } }

/-- The load ends with an accepted slot's result. -/
def endLoadWith (r : LoadResult) (c : LoadCursor) (s : State) : State :=
  endLoad r (some c.slot) c.header.sequence s

/-! ### Trying the valid slots (R146) -/

/-- The header of a slot when the slot is valid (R144). -/
def slotHeader (f : Flash) (i : ImageSlot) : Option ImageHeader := parseHeader (f.bytesAt i.base Config.unitSize)

/-- The valid slots in the order in which the loader tries them: descending sequence, slot 0 first when
both carry the same (R146). -/
def slotsToTry (f : Flash) : List (ImageSlot × ImageHeader) :=
  match slotHeader f .slot0, slotHeader f .slot1 with
  | none, none => []
  | some h0, none => [(.slot0, h0)]
  | none, some h1 => [(.slot1, h1)]
  | some h0, some h1 =>
    if h0.sequence < h1.sequence then [(.slot1, h1), (.slot0, h0)] else [(.slot0, h0), (.slot1, h1)]

/-- The cursor at the first entry of a slot. -/
def firstEntry (i : ImageSlot) (h : ImageHeader) (others : List (ImageSlot × ImageHeader)) : LoadCursor :=
  ⟨i, h, others, 0, streamStart, none, 0⟩

/-- The flash operation with which the load goes on to the entry at a cursor: the poll of its read (R138), or
none where the head would run past the slot, which rejects the slot with nothing read (R147). DESIGN CHOICE (log
entry 9): the rules do not say how the entries of a pass are divided into read data operations; the model takes one
polled read for each entry, head and body together. -/
def entryOp (c : LoadCursor) : FlashOp :=
  if Config.imageSlotSize < c.offset + 8 then .none else pollFor .loadRead

/-- The check pass goes on at a cursor. -/
def checkAt (c : LoadCursor) (s : State) : State :=
  { s with image := { s.image with loader := .checking c, op := entryOp c } }

/-- The install pass goes on at a cursor. -/
def installNext (c : LoadCursor) (s : State) : State :=
  { s with image := { s.image with loader := .installing c, op := entryOp c } }

/-- Trying slots: a slot with record count 0 reads no entry, and passes when its body bytes are 0, as a
LOADED load of nothing; the end of the list is EMPTY, REJECTED (R146, R147, R150). -/
def trySlots (s : State) : List (ImageSlot × ImageHeader) → State
  | [] => endLoad (.empty .rejected) none 0#32 s
  | (i, h) :: others =>
    if h.records = 0 then
      if h.bodyBytes = 0 then endLoadWith .loaded (firstEntry i h others) s else trySlots s others
    else checkAt (firstEntry i h others) s

/-- LOAD_HEADERS_READ: the read of slot 1's header unit, the second of the two, has ended (R146). -/
def headersRead (s : State) : State :=
  match s.image.loader, s.image.op with
  | .header1, .loadRead =>
    match slotsToTry s.flash with
    | [] => endLoad (.empty .noImage) none 0#32 s
    | x :: rest => trySlots s (x :: rest)
  | _, _ => s

/-! ### The check pass (R147) -/

/-- The cursor past an entry. -/
def LoadCursor.pass (c : LoadCursor) (e : LoadEntry) : LoadCursor :=
  { c with
    index := c.index + 1
    offset := c.offset + e.size
    lastTag := some e.tag
    sum := c.sum + e.length }

/-- One entry checked: rejected slots give way to the next, and the last entry's totals decide whether
the slot is accepted (R146, R147). -/
def checkEntry (c : LoadCursor) (s : State) : State :=
  match readEntry s.flash c.slot c.offset with
  | none => trySlots s c.others
  | some e =>
    if tagRises c.lastTag e.tag then
      let passed := c.pass e
      if passed.index < c.header.records then checkAt passed s
      else if passed.sum = c.header.bodyBytes then installNext (firstEntry c.slot c.header c.others) s
      else trySlots s c.others
    else trySlots s c.others

/-- LOAD_ENTRY_CHECKED: the entry has been read, or its head would run past the slot (R147). -/
def entryChecked (s : State) : State :=
  match s.image.loader, s.image.op with
  | .checking c, .loadRead => checkEntry c s
  | .checking c, .none => checkEntry c s
  | _, _ => s

/-! ### The install pass (R148, R149) -/

/-- The contents that the load installs, with the pages it claims; none when the claim is refused
(R36, Table 7-5). -/
def loadContent (e : LoadEntry) (pool : Pool) : Option (Content × Pool) :=
  match e.kind with
  | .counter => some (.counter e.attrs (BitVec.ofNat 32 (fromBe e.body)) e.crc, pool)
  | .blob =>
    match loadPages (pagesFor e.length) e.body pool with
    | none => none
    | some (pages, pool') => some (.blob e.attrs e.length pages e.crc, pool')

/-- One entry installed as the only version of a new chain at generation 1, or none when a directory slot
or a page is wanting (R148, R149). A tag that already has a slot has no free slot of its own to take;
the check pass has ruled it out. -/
def installEntry (e : LoadEntry) (s : State) : Option State :=
  if freeSlots s = 0 || freeEntries s = 0 || !(chainOf s.directory e.tag).isEmpty then none
  else
    match loadContent e s.pool with
    | none => none
    | some (content, pool) =>
      some { s with directory := install s.directory e.tag ⟨1#32, content⟩, pool := pool }

/-- The entry at the cursor read again and installed, or the load stops PARTIAL (R148, R149). The second
reading returns what the check pass accepted (R148); an entry that no longer passes stops the load. -/
def installAt (c : LoadCursor) (s : State) : State :=
  match readEntry s.flash c.slot c.offset with
  | none => endLoadWith .stoppedPartial c s
  | some e =>
    match installEntry e s with
    | none => endLoadWith .stoppedPartial c s
    | some t =>
      let passed := c.pass e
      if passed.index < c.header.records then installNext passed t
      else endLoadWith .loaded c t

/-- LOAD_ENTRY_INSTALLED: the entry has been read again (R148). -/
def entryInstalled (s : State) : State :=
  match s.image.loader, s.image.op with
  | .installing c, .loadRead => installAt c s
  | .installing c, .none => installAt c s
  | _, _ => s

/-! ### Status polls (R138) -/

/-- The read of the load that a poll lets proceed. The read of slot 0's header unit has no row that ends it,
so the poll of slot 1's begins here (R138, R146; log entry 9). -/
def sendLoadRead (s : State) : State :=
  match s.image.loader with
  | .header0 => { s with image := { s.image with loader := .header1, op := pollFor .loadRead } }
  | .idle | .header1 | .checking _ | .installing _ => { s with image := { s.image with op := .loadRead } }

/-- STATUS_POLL_READY: an operation left running in the flash has ended, and the operation of the poll
proceeds (R138). -/
def pollReady (left : Option (List Byte)) (s : State) : State :=
  match s.image.op with
  | .poll next _ =>
    let t := { s with flash := s.flash.settle left }
    match next, t.image.checkpoint with
    | .loadRead, _ => sendLoadRead t
    | .readback addr data, _ => { t with image := { t.image with op := .readback addr data } }
    | .erase, some c => sendErase c t
    | .program, some c => sendProgram c t
    | .erase, none | .program, none => s
  | _ => s

/-- The failure of a load's poll. A poll fails only while the last status byte read showed 1, and within the load
only the first can find the flash busy (R138): its failure ends the load EMPTY, NO_IMAGE (R146, Table 7-6), and a
later one does not fail (log entry 9). -/
def failLoadPoll (s : State) : State :=
  match s.image.loader with
  | .header0 => endLoad (.empty .noImage) none 0#32 s
  | .idle | .header1 | .checking _ | .installing _ => s

/-- STATUS_POLL_TIMEOUT: the operation is not sent; the load ends with its first poll, and a checkpoint ends
FAILED with the cause of its stage (R138). -/
def pollTimeout (s : State) : State :=
  match s.image.op with
  | .poll next t =>
    if t.due then
      match next, s.image.checkpoint with
      | .loadRead, _ => failLoadPoll s
      | _, some c => endCheckpoint (.failed (stageCause c)) s
      | _, none => s
    else s
  | _ => s

/-! ### Meanings -/

/-- STATUS_POLL_READY (R138). -/
def execStatusPollReady (left : Option (List Byte)) (s : State) : Out := .next (pollReady left s)

/-- STATUS_POLL_TIMEOUT (R138). -/
def execStatusPollTimeout (s : State) : Out := .next (pollTimeout s)

/-- LOAD_HEADERS_READ (R146). -/
def execLoadHeadersRead (s : State) : Out := .next (headersRead s)

/-- LOAD_ENTRY_CHECKED (R147). -/
def execLoadEntryChecked (s : State) : Out := .next (entryChecked s)

/-- LOAD_ENTRY_INSTALLED (R148, R149). -/
def execLoadEntryInstalled (s : State) : Out := .next (entryInstalled s)

end Sys2Proof.Machine
end

