-- ==== Sys2Proof/Machine/Ports.lean ====
section
/-! DEFINITION. The host ports (chapter 8): CONFIGURE, DEVICE_STATUS, PORT_RESET, the frames on the bus and
the stall timer. -/

namespace Sys2Proof.Machine

/-! ### CONFIGURE (R176, R177) -/

/-- The payload of CONFIGURE: the four fields in force (Table 10-4). -/
def configPayload (p : Port) (s : State) : List Byte :=
  let c := (s.ifaces.get p).config
  natBe16 c.idleTimeout ++ natBe16 c.holdTimeout ++ [natByte c.stallLimit, byteOfFlags (s.notes.get p).mask]

/-- Every field lies in its range (Table 8-4). -/
def configInRange (idle hold stall : Nat) (mask : Byte) : Bool :=
  decide (idle ≤ Config.maxTimeout) && decide (hold ≤ Config.maxTimeout)
    && decide (Config.minStall ≤ stall) && decide (stall ≤ Config.maxStall) && flagByteOk mask

/-- The four fields set together; the mask takes effect at once (R176, R177, R132). -/
def setConfig (p : Port) (config : PortConfig) (mask : FlagSet) (s : State) : State :=
  (s.setIface p { s.ifaces.get p with config := config }).setNote p ((s.notes.get p).withMask mask)

/-- CONFIGURE (R176). -/
def takeConfigure (p : Port) (idle hold stall : Nat) (mask : Byte) (s : State) : State × Answer :=
  if configInRange idle hold stall mask then
    let t := setConfig p ⟨idle, hold, stall⟩ (flagsOfByte mask) s
    (t, ⟨.ok, configPayload p t⟩)
  else (s, ⟨.range, configPayload p s⟩)

/-! ### DEVICE_STATUS (R178) -/

/-- The payload of DEVICE_STATUS (Table 10-5). -/
def statusPayload (p : Port) (s : State) : List Byte :=
  [s.image.device.code, s.image.load.code, s.image.load.detailCode,
   (if privileged s p then 0x01#8 else 0x00#8),
   stageCode s.image.checkpoint, lastResultCode s.image.last, lastCauseCode s.image.last,
   currentSlotCode s.image.current]
  ++ be32 s.image.sequence ++ be32 s.g ++ natBe16 s.pool.free.length ++ natBe16 (freeEntries s)
  ++ [natByte (freeSlots s), natByte (s.notes.get p).lost]

/-- DEVICE_STATUS changes nothing but the reply (R178). -/
def takeDeviceStatus (p : Port) (s : State) : State × Answer := (s, ⟨.ok, statusPayload p s⟩)

/-! ### PORT_RESET (R180, R181) -/

/-- The notification state of a port after a port reset (R135). -/
def resetNote (p : Port) (s : State) : State := s.setNote p Notify.afterReset

/-- The port interface after a port reset; the reply that R169 then writes is the OK to PORT_RESET
(R181). -/
def resetIface (p : Port) (s : State) : State := s.setIface p Iface.afterReset

/-- PORT_RESET, block by block in the order of Table 8-7 (R180). -/
def takePortReset (p : Port) (s : State) : State × Answer :=
  (resetIface p (resetNote p (releaseBinding p (resetTxn p s))), Answer.bare .ok)

/-- DEVICE_STATUS carries no argument. -/
def requestDeviceStatus : Taking := fun p _ s => takeDeviceStatus p s
/-- CONFIGURE carries the two timeouts, the stall limit and the attention mask. -/
def requestConfigure : Taking := fun p args s =>
  takeConfigure p (arg16 args 0) (arg16 args 2) (argByte args 4).toNat (argByte args 5) s
/-- PORT_RESET carries no argument. -/
def requestPortReset : Taking := fun p _ s => takePortReset p s

/-! ### The end of an open frame -/

/-- The owner of each request (Table 8-3). -/
def takingOf : Request → Taking
  | .deviceStatus => requestDeviceStatus
  | .configure => requestConfigure
  | .portReset => requestPortReset
  | .flagClear => requestFlagClear
  | .snapOpen => requestSnapOpen
  | .snapClose => requestSnapClose
  | .stat => requestStat
  | .read => requestRead
  | .scan => requestScan
  | .beginTxn => requestBegin
  | .create => requestCreate
  | .write => requestWrite
  | .resize => requestResize
  | .add => requestAdd
  | .delete => requestDelete
  | .commit => requestCommit
  | .abort => requestAbort
  | .txnStatus => requestTxnStatus
  | .watch => requestWatch
  | .unwatch => requestUnwatch
  | .eventPeek => requestEventPeek
  | .eventAck => requestEventAck
  | .checkpoint => requestCheckpoint
  | .checkpointCancel => requestCheckpointCancel

/-- The end of a write frame with the bytes received, by STOP or repeated START (Table 8-2). -/
def endReceiving (p : Port) (buffer : List Byte) (s : State) : State :=
  match buffer with
  | [] => closeFrame p s
  | c :: args =>
    match requestOfCode c with
    | none => endUnknown p c s
    | some r => endWriteFrame r (takingOf r) p (c :: args) s

/-- The end of a read frame, by STOP, repeated START or abandonment: a FRAME slot is freed with
retirement, a pending lapse is taken (R174, R51, R43). The stream stays open. -/
def endSending (p : Port) (s : State) : State :=
  let t := closeFrame p s
  match (t.snaps.get p).state with
  | .frame _ => retireOnRelease (freeSlot p t)
  | .held gen => if (t.snaps.get p).lapsePending then lapse p gen t else t
  | .free | .lapsed => t

/-- The end of whatever frame is open on the port (R164). -/
def endOpenFrame (p : Port) (s : State) : State :=
  match (s.ifaces.get p).frame with
  | .idle => s
  | .receiving _ buffer => endReceiving p buffer s
  | .sending _ _ => endSending p s

/-! ### The start of a frame (R163, R164, R171) -/

/-- The address that every port answers: 0x58 plus ADR (R163). -/
def portAddress (s : State) : BitVec 7 := 0x58#7 + s.adr.setWidth 7

/-- SDA for the address byte. -/
def driveBus (p : Port) (b : BusOut) (s : State) : State := s.setIface p { s.ifaces.get p with bus := b }

/-- A START or repeated START: while device reset is in force no port answers; otherwise an open frame
ends first, and the port's own address is acknowledged and begins a frame, any other is not
(R163, R164, Table 8-1). -/
def startFrame (begins : Port → State → State) (p : Port) (address : BitVec 7) (s : State) : State :=
  if s.inReset then s
  else
    let t := endOpenFrame p s
    if address = portAddress t then driveBus p .acknowledged (begins p t) else driveBus p .notAcknowledged t

/-- A write frame begins: an empty receive buffer and the stall timer loaded (R164, R165). -/
def beginReceiving (p : Port) (s : State) : State :=
  let i := s.ifaces.get p
  s.setIface p { i with frame := .receiving i.config.stallLimit [], stall := Timer.load i.config.stallLimit }

/-- A HELD slot's hold timer is reloaded, and a FREE slot becomes FRAME at G for a streaming frame (R41, R50). -/
def bindSlot (p : Port) (streaming : Bool) (s : State) : State :=
  let snap := s.snaps.get p
  match snap.state with
  | .held _ => s.setSnap p { snap with hold := loadHold p s }
  | .free => if streaming then s.setSnap p { snap with state := .frame s.g } else s
  | .frame _ | .lapsed => s

/-- Step 2 of R171. Where the tick that brings the hold timer's expiry has been taken first, the timer expires
with no read frame open, and the frame starts with the slot LAPSED (R41). -/
def bindFrame (p : Port) (streaming : Bool) (s : State) : State := bindSlot p streaming (expireHold p s)

/-- The view that step 2 leaves for a streaming frame, none when the slot is LAPSED (Table 3-3). -/
def frameView (p : Port) (s : State) : Option Gen :=
  match (s.snaps.get p).state with
  | .held g => some g
  | .frame g => some g
  | .free | .lapsed => none

/-- The result of a READ frame at a view (R54). -/
def readResult (dir : List DirSlot) (tag : Tag) (offset : Nat) (view : Gen) : Result :=
  match visible dir tag view with
  | none => .absent
  | some v => if v.length ≤ offset then .atEnd else .ok

/-- The result of a SCAN frame at a view (R57). -/
def scanResult (dir : List DirSlot) (position : Tag) (view : Gen) : Result :=
  match nextVisible dir view position with
  | none => .atEnd
  | some _ => .ok

/-- Step 3 of R171: what the frame sends, fixed at its start. -/
def frameSource (p : Port) (s : State) : FrameSource :=
  match (s.ifaces.get p).stream, frameView p s with
  | .closed, _ => .buffered
  | .read _ _, none => .streaming .lapsed 0#32
  | .scan _, none => .streaming .lapsed 0#32
  | .read tag offset, some view => .streaming (readResult s.directory tag offset view) view
  | .scan position, some view => .streaming (scanResult s.directory position view) view

/-- A read frame begins, in the order of R171. -/
def beginSending (p : Port) (s : State) : State :=
  let streaming := (s.ifaces.get p).stream != .closed
  let t := bindFrame p streaming s
  let i := t.ifaces.get p
  let frame : ReadFrame := ⟨frameSource p t, 0, false⟩
  t.setIface p { i with
    frame := .sending i.config.stallLimit frame
    stall := Timer.load i.config.stallLimit }

/-! ### Bytes of a frame -/

/-- An SCL edge while a frame of the port lasts: the stall timer is reloaded (R165). -/
def clockEdge (p : Port) (s : State) : State :=
  let i := s.ifaces.get p
  match i.frame with
  | .receiving limit _ | .sending limit _ => s.setIface p { i with stall := Timer.load limit }
  | .idle => s

/-- A data byte of a write frame: acknowledged and stored up to the declared length, left unacknowledged
and ignored past it; the stall timer is reloaded (R166, R167, R165). -/
def receiveByte (p : Port) (b : Byte) (s : State) : State :=
  let i := s.ifaces.get p
  match i.frame with
  | .receiving limit buffer =>
    if buffer.length < declaredLength buffer then
      s.setIface p { i with
        frame := .receiving limit (buffer ++ [b])
        stall := Timer.load limit
        bus := .acknowledged }
    else s.setIface p { i with stall := Timer.load limit, bus := .notAcknowledged }
  | .idle | .sending _ _ => s

/-- The SCAN entry of a visible version (Table 10-10). -/
def scanEntry (x : Tag × Version) : List Byte := (x.2.head? x.1).getD [] ++ be32 x.2.gen

/-- The byte that follows the header of a streaming frame with result OK, and the cursor after it has
been sent whole (R55, R57, R58). `k` counts the bytes sent since the header. -/
def streamByte (s : State) (stream : Stream) (view : Gen) (k : Nat) : Byte × Stream :=
  match stream with
  | .closed => (0xFF#8, .closed)
  | .read tag offset =>
    match visible s.directory tag view with
    | none => (0xFF#8, .read tag offset)
    | some v =>
      if offset < v.length then (v.bodyByte s.pool offset, .read tag (offset + 1))
      else (0xFF#8, .read tag offset)
  | .scan position =>
    match nextVisible s.directory view position with
    | none => (0xFF#8, .scan position)
    | some x =>
      ((scanEntry x).getD (k % 12) 0xFF#8, if k % 12 = 11 then .scan (x.1 + 1#16) else .scan position)

/-- The request code of a stream (R54, R57). -/
def Stream.code : Stream → Byte
  | .closed => 0x00#8
  | .read _ _ => requestCode .read
  | .scan _ => requestCode .scan

/-- The next byte of a read frame, and the stream cursor after it (R172, R173). -/
def frameByte (s : State) (i : Iface) (f : ReadFrame) : Byte × Stream :=
  match f.source with
  | .buffered => (i.reply.bytes.getD f.sent 0xFF#8, i.stream)
  | .streaming result view =>
    if f.sent < 6 then ((replyHeader result i.stream.code view).getD f.sent 0xFF#8, i.stream)
    else if result = .ok then streamByte s i.stream view (f.sent - 6)
    else (0xFF#8, i.stream)

/-- A byte of a read frame clocked out: it counts as sent whether acknowledged or not, the cursor moves,
the stall timer is reloaded. After a byte left unacknowledged the port sends nothing (R173, R49). -/
def sendByte (p : Port) (acknowledged : Bool) (s : State) : State :=
  let i := s.ifaces.get p
  match i.frame with
  | .sending limit f =>
    if f.silent then s.setIface p { i with stall := Timer.load limit, bus := .released }
    else
      let out := frameByte s i f
      s.setIface p { i with
        frame := .sending limit { f with sent := f.sent + 1, silent := !acknowledged }
        stall := Timer.load limit
        bus := .sent out.1
        stream := out.2 }
  | .idle | .receiving _ _ => s

/-- A data byte of a write frame, or an SCL edge inside it (R164, Table 8-1). -/
def receiveClocked (p : Port) (b : Clocked Byte) (s : State) : State :=
  match b, (s.ifaces.get p).frame with
  | .byte b, _ => receiveByte p b s
  | .edge, .receiving _ _ => clockEdge p s
  | .edge, .idle | .edge, .sending _ _ => s

/-- A byte of a read frame, or an SCL edge inside it (R164, Table 8-1). -/
def sendClocked (p : Port) (acknowledged : Clocked Bool) (s : State) : State :=
  match acknowledged, (s.ifaces.get p).frame with
  | .byte acknowledged, _ => sendByte p acknowledged s
  | .edge, .sending _ _ => clockEdge p s
  | .edge, .idle | .edge, .receiving _ _ => s

/-! ### Ends of frames that are no request -/

/-- A write frame whose code names no request ends (R168). -/
def unknownFrameEnds (p : Port) (s : State) : State :=
  match (s.ifaces.get p).frame with
  | .receiving _ (c :: _) => if requestOfCode c = none then endUnknown p c s else s
  | .receiving _ [] | .idle | .sending _ _ => s

/-- A write frame with no byte after the address ends (R168). -/
def emptyFrameEnds (p : Port) (s : State) : State :=
  match (s.ifaces.get p).frame with
  | .receiving _ [] => closeFrame p s
  | .receiving _ (_ :: _) | .idle | .sending _ _ => s

/-- A read frame ends (R174). -/
def readFrameEnds (p : Port) (s : State) : State :=
  match (s.ifaces.get p).frame with
  | .sending _ _ => endSending p s
  | .idle | .receiving _ _ => s

/-- The stall timer's expiry: the open frame is abandoned. A write frame is discarded, a read frame ends
(R165). -/
def expireStall (p : Port) (s : State) : State :=
  if (s.ifaces.get p).stall.due then
    match (s.ifaces.get p).frame with
    | .receiving _ _ => closeFrame p s
    | .sending _ _ => endSending p s
    | .idle => s
  else s

/-! ### Meanings -/

/-- DEVICE_STATUS (R178). -/
def execDeviceStatus (p : Port) (s : State) : Out := .next (endRequest .deviceStatus requestDeviceStatus p s)

/-- CONFIGURE (R176). -/
def execConfigure (p : Port) (s : State) : Out := .next (endRequest .configure requestConfigure p s)

/-- PORT_RESET (R180). -/
def execPortReset (p : Port) (s : State) : Out := .next (endRequest .portReset requestPortReset p s)

/-- UNKNOWN_CODE_FRAME (R168, R169). -/
def execUnknownCodeFrame (p : Port) (s : State) : Out := .next (unknownFrameEnds p s)

/-- EMPTY_WRITE_FRAME (R168). -/
def execEmptyWriteFrame (p : Port) (s : State) : Out := .next (emptyFrameEnds p s)

/-- WRITE_FRAME_START (R163, R164). -/
def execWriteFrameStart (p : Port) (address : BitVec 7) (s : State) : Out := .next (startFrame beginReceiving p address s)

/-- READ_FRAME_START (R163, R171). -/
def execReadFrameStart (p : Port) (address : BitVec 7) (s : State) : Out := .next (startFrame beginSending p address s)

/-- READ_FRAME_END (R174). -/
def execReadFrameEnd (p : Port) (s : State) : Out := .next (readFrameEnds p s)

/-- STALL_TIMER_EXPIRY (R165). -/
def execStallTimerExpiry (p : Port) (s : State) : Out := .next (expireStall p s)

/-- DATA_BYTE_RECEIVED (R166, R165). -/
def execDataByteReceived (p : Port) (b : Clocked Byte) (s : State) : Out := .next (receiveClocked p b s)

/-- BYTE_CLOCKED_OUT (R173, R165). -/
def execByteClockedOut (p : Port) (acknowledged : Clocked Bool) (s : State) : Out :=
  .next (sendClocked p acknowledged s)

end Sys2Proof.Machine
end

