-- ==== Sys2Proof/Machine/Reset.lean ====
section
/-! DEFINITION. Device reset and the time base (chapter 9): DEVICE_RESET, DEVICE_RESET_END and TICK. -/

namespace Sys2Proof.Machine

/-- The flash at a device reset: RESET_N does not reach it, a loss of power may cut its operation off
(R161, R185). -/
def flashAtReset (cause : ResetCause) (f : Flash) : Flash :=
  match cause with
  | .resetN => f
  | .power left => f.cutOff left

/-- DEVICE_RESET: every block at its device-reset values, every operation in progress ended with no event
and no reply (R185). The flash is not a block of the part, and the waiting commands still wait. -/
def deviceReset (cause : ResetCause) (s : State) : State :=
  { State.reset with flash := flashAtReset cause s.flash, pending := s.pending }

/-- DEVICE_RESET_END: the straps are sampled, the ports answer their address, and the load begins with
its first status poll (R184, R185, R145, R146). -/
def deviceResetEnd (adr : BitVec 3) (priv : BitVec 4) (s : State) : State :=
  if s.inReset then
    { s with
      inReset := false
      adr := adr
      priv := priv
      image := { s.image with device := .loading, loader := .header0, op := pollFor .loadRead } }
  else s

/-- A port interface after a tick. -/
def Iface.tick (i : Iface) : Iface := { i with stall := i.stall.tick }
/-- A snapshot slot after a tick. -/
def Snap.tick (x : Snap) : Snap := { x with hold := x.hold.tick }
/-- A transaction context after a tick. -/
def Context.tick (c : Context) : Context := { c with idle := c.idle.tick }

/-- An expiry of the last tick has still to be taken by its owner (R186, R187). -/
def expiryWaits (s : State) : Bool :=
  Port.all.any (fun p => (s.ifaces.get p).stall.due || (s.snaps.get p).hold.due || (s.txns.get p).idle.due)
    || s.image.op.timer.due

/-- TICK: handed at one happening to every running timer; none while device reset is in force
(R185, R186, R187). The expiries of a tick come before the next tick, since a timer expires on its N-th
tick and on no later one (R187). -/
def tickAll (s : State) : State :=
  if s.inReset || expiryWaits s then s
  else
    { s with
      ifaces := s.ifaces.mapPorts (fun _ => Iface.tick)
      snaps := s.snaps.mapPorts (fun _ => Snap.tick)
      txns := s.txns.mapPorts (fun _ => Context.tick)
      image := { s.image with op := s.image.op.tick } }

/-! ### Meanings -/

/-- TICK (R186, R187). -/
def execTick (s : State) : Out := .next (tickAll s)

/-- DEVICE_RESET (R185). -/
def execDeviceReset (cause : ResetCause) (s : State) : Out := .next (deviceReset cause s)

/-- DEVICE_RESET_END (R185). -/
def execDeviceResetEnd (adr : BitVec 3) (priv : BitVec 4) (s : State) : Out := .next (deviceResetEnd adr priv s)

end Sys2Proof.Machine
end

