-- ==== Sys2Proof/Machine/Dispatch.lean ====
section
/-! DEFINITION. exec: one arm per command, each one direct call of its meaning. -/

namespace Sys2Proof.Machine

def exec (i : Instr) (s : State) : Host.Outcome State Fault Refusal :=
  match i with
  | .deviceStatus p => Sys2Proof.Machine.execDeviceStatus p s
  | .configure p => Sys2Proof.Machine.execConfigure p s
  | .portReset p => Sys2Proof.Machine.execPortReset p s
  | .flagClear p => Sys2Proof.Machine.execFlagClear p s
  | .snapOpen p => Sys2Proof.Machine.execSnapOpen p s
  | .snapClose p => Sys2Proof.Machine.execSnapClose p s
  | .stat p => Sys2Proof.Machine.execStat p s
  | .read p => Sys2Proof.Machine.execRead p s
  | .scan p => Sys2Proof.Machine.execScan p s
  | .beginTxn p => Sys2Proof.Machine.execBeginTxn p s
  | .create p => Sys2Proof.Machine.execCreate p s
  | .write p => Sys2Proof.Machine.execWrite p s
  | .resize p => Sys2Proof.Machine.execResize p s
  | .add p => Sys2Proof.Machine.execAdd p s
  | .delete p => Sys2Proof.Machine.execDelete p s
  | .commit p => Sys2Proof.Machine.execCommit p s
  | .abort p => Sys2Proof.Machine.execAbort p s
  | .txnStatus p => Sys2Proof.Machine.execTxnStatus p s
  | .watch p => Sys2Proof.Machine.execWatch p s
  | .unwatch p => Sys2Proof.Machine.execUnwatch p s
  | .eventPeek p => Sys2Proof.Machine.execEventPeek p s
  | .eventAck p => Sys2Proof.Machine.execEventAck p s
  | .checkpoint p => Sys2Proof.Machine.execCheckpoint p s
  | .checkpointCancel p => Sys2Proof.Machine.execCheckpointCancel p s
  | .unknownCodeFrame p => Sys2Proof.Machine.execUnknownCodeFrame p s
  | .emptyWriteFrame p => Sys2Proof.Machine.execEmptyWriteFrame p s
  | .writeFrameStart p address => Sys2Proof.Machine.execWriteFrameStart p address s
  | .readFrameStart p address => Sys2Proof.Machine.execReadFrameStart p address s
  | .readFrameEnd p => Sys2Proof.Machine.execReadFrameEnd p s
  | .stallTimerExpiry p => Sys2Proof.Machine.execStallTimerExpiry p s
  | .tick => Sys2Proof.Machine.execTick s
  | .holdTimerExpiry p => Sys2Proof.Machine.execHoldTimerExpiry p s
  | .idleTimerExpiry p => Sys2Proof.Machine.execIdleTimerExpiry p s
  | .take => Sys2Proof.Machine.execTake s
  | .pageDigested => Sys2Proof.Machine.execPageDigested s
  | .publish => Sys2Proof.Machine.execPublish s
  | .deviceReset cause => Sys2Proof.Machine.execDeviceReset cause s
  | .deviceResetEnd adr priv => Sys2Proof.Machine.execDeviceResetEnd adr priv s
  | .statusPollReady left => Sys2Proof.Machine.execStatusPollReady left s
  | .statusPollTimeout => Sys2Proof.Machine.execStatusPollTimeout s
  | .eraseDone left => Sys2Proof.Machine.execEraseDone left s
  | .eraseTimerExpiry => Sys2Proof.Machine.execEraseTimerExpiry s
  | .programDone left => Sys2Proof.Machine.execProgramDone left s
  | .programTimerExpiry => Sys2Proof.Machine.execProgramTimerExpiry s
  | .readbackDone received => Sys2Proof.Machine.execReadbackDone received s
  | .loadHeadersRead => Sys2Proof.Machine.execLoadHeadersRead s
  | .loadEntryChecked => Sys2Proof.Machine.execLoadEntryChecked s
  | .loadEntryInstalled => Sys2Proof.Machine.execLoadEntryInstalled s
  | .dataByteReceived p b => Sys2Proof.Machine.execDataByteReceived p b s
  | .byteClockedOut p acknowledged => Sys2Proof.Machine.execByteClockedOut p acknowledged s

end Sys2Proof.Machine
end

