-- ==== Sys2Proof/Safety.lean ====
section
/-! DEFINITION. The terms claims are stated in: what a request finds in a port, the reply it leaves, and the
invariants of the blocks. -/

namespace Sys2Proof.Machine

/-! ### Requests -/

/-- The row of a request on a port. -/
def requestRow : Request → Port → Instr
  | .deviceStatus, p => .deviceStatus p
  | .configure, p => .configure p
  | .portReset, p => .portReset p
  | .flagClear, p => .flagClear p
  | .snapOpen, p => .snapOpen p
  | .snapClose, p => .snapClose p
  | .stat, p => .stat p
  | .read, p => .read p
  | .scan, p => .scan p
  | .beginTxn, p => .beginTxn p
  | .create, p => .create p
  | .write, p => .write p
  | .resize, p => .resize p
  | .add, p => .add p
  | .delete, p => .delete p
  | .commit, p => .commit p
  | .abort, p => .abort p
  | .txnStatus, p => .txnStatus p
  | .watch, p => .watch p
  | .unwatch, p => .unwatch p
  | .eventPeek, p => .eventPeek p
  | .eventAck, p => .eventAck p
  | .checkpoint, p => .checkpoint p
  | .checkpointCancel, p => .checkpointCancel p

/-- The open write frame of a port has brought these bytes. -/
def frameHolds (p : Port) (bytes : List Byte) (s : State) : Prop :=
  ∃ limit, (s.ifaces.get p).frame = .receiving limit bytes

/-- The device is READY and the open write frame of a port has brought these bytes. -/
def readyWith (p : Port) (bytes : List Byte) (s : State) : Prop :=
  s.image.device = .ready ∧ frameHolds p bytes s

/-- The port interface after the end of a judged write frame that leaves no stream open (R164, R165, R168,
R169): only this port's interface differs from `s`. -/
def replied (p : Port) (result : Result) (code : Byte) (gen : Gen) (payload : List Byte) (s : State) : State :=
  s.setIface p { s.ifaces.get p with
    frame := .idle, stall := none, bus := .released, stream := .closed, reply := ⟨result, code, gen, payload⟩ }

/-- A port's frame that is over (R164, R165): only this port's frame state, stall timer and SDA differ. -/
def frameOver (p : Port) (s : State) : State :=
  s.setIface p { s.ifaces.get p with frame := .idle, stall := none, bus := .released }

/-- The reply to a staging request taken in OPEN, accepted or refused: no payload, the idle timer reloaded,
the staging refusal detail set (R68, R86). -/
def stagedReply (p : Port) (result : Result) (code : Byte) (detail : StagingDetail) (s : State) : State :=
  replied p result code s.g []
    (s.setTxn p { s.txns.get p with
      idle := Timer.load (s.ifaces.get p).config.idleTimeout
      refusal := detail })

/-- Commands taken one after another. -/
def execAll : List Instr → State → Out
  | [], s => .next s
  | c :: rest, s =>
    match exec c s with
    | .next t => execAll rest t
    | .fault f => .fault f
    | .refused r => .refused r

/-- The detail of the CONFLICT that an intent gives when it fails its check at TAKE (R99 to R101). -/
def conflictDetail (dir : List DirSlot) (i : Intent) : ConflictDetail :=
  match i.op with
  | .created _ _ => .alreadyExists
  | .written _ _ | .deleted _ => .changed
  | .added _ _ =>
    match (chainOf dir i.tag).head? with
    | none => .gone
    | some v => if v.isTombstone then .gone else .changed

/-- An intent passes its check at TAKE (R99 to R101), said over the chain of its tag. -/
def passesTake (dir : List DirSlot) (i : Intent) : Prop :=
  match i.op with
  | .created _ _ => ∀ v, (chainOf dir i.tag).head? = some v → v.isTombstone = true
  | .written base _ | .deleted base => ∃ v, (chainOf dir i.tag).head? = some v ∧ v.gen = base
  | .added _ _ => ∃ v, (chainOf dir i.tag).head? = some v ∧ v.kind? = some .counter

/-- What the end of a checkpoint with a result leaves (R156): no stage and no flash operation, slot 4 FREE
with its retirement, the result recorded, IMAGE_DONE and IMAGE at every privileged port, and everything
else as it was. -/
structure CheckpointEnded (r : ImageResult) (s t : State) : Prop where
  image : t.image = { s.image with checkpoint := none, op := .none, last := some r }
  slotFour : t.slot4 = none
  directory : t.directory = (retireOnRelease { s with slot4 := none }).directory
  pool : t.pool = (retireOnRelease { s with slot4 := none }).pool
  engine : t.engine = (retireOnRelease { s with slot4 := none }).engine
  notes : ∀ p, t.notes.get p =
    if privileged s p then
      ((s.notes.get p).arrive ⟨.imageDone, 0x0000#16, checkpointGen s, .image r⟩).raise flagImage
    else s.notes.get p
  rest : t = { s with
    image := t.image, slot4 := t.slot4, directory := t.directory, pool := t.pool, engine := t.engine,
    notes := t.notes }

/-- What the end of the load with a result leaves (R150, Table 7-6): the result, the current slot and the
sequence, a READY device, LOADED on every port, and everything else as it was. -/
structure LoadEnded (r : LoadResult) (current : Option ImageSlot) (sequence : Gen) (s t : State) : Prop where
  image : t.image = { s.image with
    device := .ready, load := r, loader := .idle, current := current, sequence := sequence, op := .none }
  notes : ∀ p, t.notes.get p = (s.notes.get p).raise flagLoaded
  rest : t = { s with image := t.image, notes := t.notes }

/-- What trying the valid slots in their order leaves (R146, R147): the check pass of the first slot that names
an entry, polled for; before that a slot with no entry is loaded when its body bytes are 0 and rejected
otherwise; with none left the load ends EMPTY, REJECTED. -/
def SlotsTried (s t : State) : List (ImageSlot × ImageHeader) → Prop
  | [] => LoadEnded (.empty .rejected) none 0#32 s t
  | (i, h) :: others =>
    (h.records ≠ 0 → t = { s with image := { s.image with
      loader := .checking ⟨i, h, others, 0, 256, none, 0⟩, op := .poll .loadRead (some 400) } })
    ∧ (h.records = 0 → h.bodyBytes = 0 → LoadEnded .loaded (some i) h.sequence s t)
    ∧ (h.records = 0 → h.bodyBytes ≠ 0 → SlotsTried s t others)

/-! ### Lists of pages and bodies -/

/-- The staged bodies of a port's transaction context, in intent-list order (R33). -/
def stagedBodies (p : Port) (s : State) : List StagedBody :=
  (s.txns.get p).intents.filterMap (fun i => i.op.body?)

/-- The page lists of the versions, each with its record's tag. -/
def versionPageLists (s : State) : List (Tag × List PageNo) :=
  s.directory.flatMap (fun d => d.chain.map (fun v => (d.tag, v.pages)))

/-- The page lists of a port's staged bodies, each with its record's tag. -/
def stagedPageLists (p : Port) (s : State) : List (Tag × List PageNo) :=
  (s.txns.get p).intents.filterMap (fun i => i.op.body?.map (fun b => (i.tag, b.pageNos)))

/-- The version and staged page lists of the part (R24), each with its record's tag. -/
def pageLists (s : State) : List (Tag × List PageNo) :=
  versionPageLists s ++ Port.all.flatMap (fun p => stagedPageLists p s)

/-- The base generation of an intent, when it has one (R64). -/
def IntentOp.base? : IntentOp → Option Gen
  | .created _ _ => none
  | .written base _ => some base
  | .added base _ => some base
  | .deleted base => some base

/-- A page list of a BLOB version: exactly ceil(length/32) pages, none twice, length at most 2048 (R6, R26). -/
def Version.listOk (v : Version) : Prop :=
  match v.content with
  | .blob _ length pages _ => length ≤ Config.maxBody ∧ pages.length = pagesFor length ∧ pages.Nodup
  | .counter .. | .tombstone => True

/-- The same for a staged body (R26, R64). -/
def StagedBody.listOk (b : StagedBody) : Prop :=
  b.length ≤ Config.maxBody ∧ b.pages.length = pagesFor b.length ∧ b.pageNos.Nodup

/-- The bytes that a page list holds past its body's length are 0x00 (R26). -/
def tailClear (pool : Pool) (length : Nat) (pages : List PageNo) : Prop :=
  ∀ k, length ≤ k → k < Config.pageSize * pages.length → pool.bodyByte pages k = 0x00#8

/-- Every version of a chain but the newest lies in a window that some generation of `gens` sees: that
generation is at least the version's and below the next newer version's (R19). -/
def chainSeen (gens : List Gen) : List Version → Prop
  | [] => True
  | [_] => True
  | newer :: v :: older => (∃ g ∈ gens, v.gen ≤ g ∧ g < newer.gen) ∧ chainSeen gens (v :: older)

/-! ### Invariants, block by block -/

/-- The notification state of a port (R119, R124, R125, R130, R133). -/
structure Notify.Ok (n : Notify) : Prop where
  watchRoom : n.watches.length ≤ Config.maxWatches
  watchesDiffer : n.watches.Nodup
  watchTags : ∀ t ∈ n.watches, recordTag t = true
  queueRoom : n.queue.length ≤ Config.maxEvents
  entriesDiffer : (n.queue.map (fun e => (e.kind, e.tag))).Nodup
  lostBound : n.lost ≤ Config.maxLost
  lostFlag : n.lost = 0 ↔ n.flags &&& flagOverflow = 0#6
  queueFlag : n.queue = [] ↔ n.flags &&& flagQueue = 0#6
  line : n.attnLow = true ↔ n.flags &&& n.mask ≠ 0#6

/-- Every port's notification state is in order. -/
def NotesOk (s : State) : Prop := ∀ p, (s.notes.get p).Ok

/-- The two memories and the reference counts stand in canonical form. -/
structure MemoriesOk (s : State) : Prop where
  pages : Memory.wf 0#8 s.pool.bytes = true
  counts : cellsWf 0 s.pool.refs = true
  flash : Memory.wf erasedByte s.flash.mem = true

/-- A port's configuration lies in the ranges of Table 8-4. -/
structure PortConfig.Ok (c : PortConfig) : Prop where
  idle : c.idleTimeout ≤ Config.maxTimeout
  hold : c.holdTimeout ≤ Config.maxTimeout
  stallLow : Config.minStall ≤ c.stallLimit
  stallHigh : c.stallLimit ≤ Config.maxStall

/-- A port's interface and snapshot slot (R38, R43, R46, R50, R164 to R166, R171). -/
structure PortOk (p : Port) (s : State) : Prop where
  config : (s.ifaces.get p).config.Ok
  idleStopped : (s.ifaces.get p).frame = .idle → (s.ifaces.get p).stall = none
  buffer : ∀ limit bytes, (s.ifaces.get p).frame = .receiving limit bytes → bytes.length ≤ declaredLength bytes
  receivingLimit : ∀ limit bytes, (s.ifaces.get p).frame = .receiving limit bytes →
    Config.minStall ≤ limit ∧ limit ≤ Config.maxStall
  sendingLimit : ∀ limit f, (s.ifaces.get p).frame = .sending limit f →
    Config.minStall ≤ limit ∧ limit ≤ Config.maxStall
  source : ∀ limit f, (s.ifaces.get p).frame = .sending limit f →
    (f.source = .buffered ↔ (s.ifaces.get p).stream = .closed)
  view : ∀ limit f result view, (s.ifaces.get p).frame = .sending limit f → f.source = .streaming result view →
    result ≠ .lapsed → (s.snaps.get p).state = .held view ∨ (s.snaps.get p).state = .frame view
  frameSlot : ∀ g, (s.snaps.get p).state = .frame g →
    ∃ limit f result, (s.ifaces.get p).frame = .sending limit f ∧ f.source = .streaming result g
  holdHeld : (s.snaps.get p).hold ≠ none → ∃ g, (s.snaps.get p).state = .held g
  lapseHeld : (s.snaps.get p).lapsePending = true →
    (s.snaps.get p).hold = none ∧ (∃ g, (s.snaps.get p).state = .held g)
      ∧ ∃ limit f, (s.ifaces.get p).frame = .sending limit f

/-- Every port is in order. -/
def PortsOk (s : State) : Prop := ∀ p, PortOk p s

/-- A transaction context by itself (R62, R63, R86, R90). -/
structure Context.Ok (c : Context) : Prop where
  room : c.intents.length ≤ Config.maxIntents
  tagsDiffer : (c.intents.map Intent.tag).Nodup
  tags : ∀ i ∈ c.intents, recordTag i.tag = true
  noneEmpty : c.state = .none → c.intents = []
  frozenFull : c.state = .queued ∨ c.state = .applying ∨ c.state = .detached → c.intents ≠ []
  idleOpen : c.idle ≠ none → c.state = .opened
  noOutcome : c.state ≠ .none → c.outcome = .none

/-- The contexts, the commit queue and the engine agree (R93, R96), and nothing is under way while the
device is LOADING (R91, R117). -/
structure ContextsOk (s : State) : Prop where
  contexts : ∀ p, (s.txns.get p).Ok
  queueOnce : s.commitQueue.Nodup
  queued : ∀ p, p ∈ s.commitQueue ↔ (s.txns.get p).state = .queued
  idle : s.engine = .idle → ∀ p, (s.txns.get p).state ≠ .applying ∧ (s.txns.get p).state ≠ .detached
  digesting : ∀ c, s.engine = .digesting c → ∀ p,
    ((s.txns.get p).state = .applying ∨ (s.txns.get p).state = .detached) ↔ p = c.port
  quiet : s.image.device = .loading → s.engine = .idle ∧ ∀ p, (s.txns.get p).state = .none
  resetLoading : s.inReset = true → s.image.device = .loading

/-- The directory, the version table, the generations and what validation promised (R2, R4, R12, R13, R15,
R19, R104). -/
structure StoreOk (s : State) : Prop where
  tagsRise : (s.directory.map DirSlot.tag).Pairwise (· < ·)
  occupied : ∀ d ∈ s.directory, d.chain ≠ []
  gensFall : ∀ d ∈ s.directory, d.chain.Pairwise (fun newer older => older.gen < newer.gen)
  noLoneTombstone : ∀ d ∈ s.directory, ∀ v, d.chain = [v] → v.isTombstone = false
  seen : ∀ d ∈ s.directory, chainSeen (holdingGens s) d.chain
  gPositive : 1#32 ≤ s.g
  versionGens : ∀ d ∈ s.directory, ∀ v ∈ d.chain, 1#32 ≤ v.gen ∧ v.gen ≤ s.g
  snapGens : ∀ g ∈ holdingGens s, 1#32 ≤ g ∧ g ≤ s.g
  slotFour : s.slot4.isSome = s.image.checkpoint.isSome
  bases : ∀ p, ∀ i ∈ (s.txns.get p).intents, ∀ base, i.op.base? = some base →
    base ≤ s.g ∧ ∀ v ∈ chainOf s.directory i.tag, v.gen = base → v.isTombstone = false
  gRoom : ∀ c, s.engine = .digesting c → s.g ≠ 0xFFFFFFFF#32
  stillPasses : ∀ c, s.engine = .digesting c → firstConflict s.directory (s.txns.get c.port).intents = none
  entriesReserved : ∀ c, s.engine = .digesting c → c.reservedEntries = (s.txns.get c.port).intents.length
  slotsReserved : ∀ c, s.engine = .digesting c →
    c.reservedSlots = slotsNeeded s.directory (s.txns.get c.port).intents
  entryRoom : entriesInUse s.directory + reservedEntries s.engine ≤ Config.versionEntries
  slotRoom : s.directory.length + reservedSlots s.engine ≤ Config.directorySlots

/-- The staged bodies that the engine digests, each with its tag, in intent-list order: those of WRITTEN and
of CREATED BLOB intents that hold a page (R105). -/
def bodiesToDigest (intents : List Intent) : List (Tag × StagedBody) :=
  intents.filterMap (fun i =>
    match i.op.body? with
    | none => none
    | some b => if b.pages.isEmpty then none else some (i.tag, b))

/-- A body with its first k pages fed into the running CRC (R105). -/
def digestAfter (pool : Pool) (k : Nat) (x : Tag × StagedBody) : Digest :=
  ⟨x.1, x.2.pageNos.drop k, x.2.length - Config.pageSize * k,
    crcFeed 0xFFFF#16 ((pool.body x.2.pageNos x.2.length).take (Config.pageSize * k))⟩

/-- What the commit in progress has digested of its bodies: some of them whole, in order, each with the CRC-16
of its bytes; the next one up to a page of it; of the others nothing (R105, R106). -/
def digestAt (pool : Pool) (bodies : List (Tag × StagedBody)) (c : Commit) : Prop :=
  ∃ before behind, bodies = before ++ behind
    ∧ c.done = before.map (fun x => (x.1, crc16 (pool.body x.2.pageNos x.2.length)))
    ∧ match behind with
      | [] => c.todo = []
      | x :: rest => ∃ k, k < x.2.pages.length ∧ c.todo = digestAfter pool k x :: rest.map (digestAfter pool 0)

/-- The page conservation law and the page lists (R24 to R28): `oneRecord` says that the lists which share a
page are lists of one record; `crcs` and `digested` that the bytes in the lists are those their CRC covers (R6,
R7, R106). -/
structure PagesOk (s : State) : Prop where
  counts : ∀ n, s.pool.ref n = ((pageLists s).flatMap Prod.snd).count n
  freePages : ∀ n, n ∈ s.pool.free ↔ n < Config.poolPages ∧ s.pool.ref n = 0
  freeOnce : s.pool.free.Nodup
  inPool : ∀ n, Config.poolPages ≤ n → s.pool.ref n = 0
  versionLists : ∀ d ∈ s.directory, ∀ v ∈ d.chain, v.listOk
  bodyLists : ∀ p, ∀ b ∈ stagedBodies p s, b.listOk
  ownedOnce : ∀ p, ∀ b ∈ stagedBodies p s, ∀ x ∈ b.pages, x.owned = true → s.pool.ref x.page = 1
  stagedOwned : ∀ p, s.pool.stagedOwned.get p = ((stagedBodies p s).map StagedBody.ownedCount).sum
  versionTails : ∀ d ∈ s.directory, ∀ v ∈ d.chain, v.pages ≠ [] → tailClear s.pool v.length v.pages
  bodyTails : ∀ p, ∀ b ∈ stagedBodies p s, tailClear s.pool b.length b.pageNos
  oneRecord : ∀ x ∈ pageLists s, ∀ y ∈ pageLists s, ∀ n, n ∈ x.2 → n ∈ y.2 → x.1 = y.1
  quota : ∀ p, s.pool.stagedOwned.get p ≤ Config.stagingQuota
  crcs : ∀ d ∈ s.directory, ∀ v ∈ d.chain, v.isTombstone = false → v.crc = crc16 (v.body s.pool)
  digested : ∀ c, s.engine = .digesting c → digestAt s.pool (bodiesToDigest (s.txns.get c.port).intents) c

/-- The slot that is not `i`. -/
def ImageSlot.other : ImageSlot → ImageSlot
  | .slot0 => .slot1
  | .slot1 => .slot0

/-- The flash addresses of an image slot (R142). -/
def ImageSlot.holds (i : ImageSlot) (addr : Nat) : Prop := i.base ≤ addr ∧ addr < i.base + Config.imageSlotSize

/-- The flash addresses that an operation running in the flash may change. -/
def FlashRun.reaches (run : FlashRun) (addr : Nat) : Prop :=
  match run with
  | .erase start => start ≤ addr ∧ addr < start + Config.sectorSize
  | .program start _ => start ≤ addr ∧ addr < start + Config.unitSize

/-- The operation in progress is one that a checkpoint sends, or the poll before it. -/
def FlashOp.forCheckpoint : FlashOp → Bool
  | .none => false
  | .poll .loadRead _ => false
  | .poll .erase _ => true
  | .poll .program _ => true
  | .poll (.readback _ _) _ => true
  | .erase _ _ => true
  | .program _ _ _ => true
  | .readback _ _ => true
  | .loadRead => false

/-- The operation in progress is a readback, or the poll before it. -/
def FlashOp.reading : FlashOp → Bool
  | .poll (.readback _ _) _ => true
  | .readback _ _ => true
  | .none => false
  | .poll .loadRead _ => false
  | .poll .erase _ => false
  | .poll .program _ => false
  | .erase _ _ => false
  | .program _ _ _ => false
  | .loadRead => false

/-- The unit that a program in progress has sent, or that a readback compares (R140, R141). -/
def FlashOp.unitData? : FlashOp → Option (List Byte)
  | .program _ data _ | .readback _ data | .poll (.readback _ data) _ => some data
  | .none | .poll .loadRead _ | .poll .erase _ | .poll .program _ | .erase _ _ | .loadRead => Option.none

/-- The image totals that an image of these records has: record count and body bytes (R143). -/
def totalsOf (records : List (Tag × Version)) : Nat × Nat := (records.length, (records.map (fun x => x.2.length)).sum)

/-- The image totals and the directory position of a checkpoint's stage, when it saves `records`: none placed
in ERASING; in WRITING those whose entries begin in the units filled so far, unit u itself once its program
has been sent; in SEALING all of them (R136, R154, R155). -/
def Image.totalsOk (m : Image) (records : List (Tag × Version)) (c : Checkpoint) : Prop :=
  match c.stage with
  | .erasing _ => (c.records, c.bodyBytes) = (0, 0)
  | .writing u position =>
    let placed := placedWithin (Config.unitSize * (if m.op.unitData?.isSome then u + 1 else u)) records
    (c.records, c.bodyBytes) = totalsOf placed
      ∧ position = match placed.getLast? with
        | none => 0x0000#16
        | some x => x.1 + 1#16
  | .sealing => (c.records, c.bodyBytes) = totalsOf records

/-- The image controller (R136, R138, R144, R145, R151): a checkpoint runs only on a READY device and never
targets the current slot, the load begins in device reset's end, an operation in progress belongs to
one of the two, the store is empty until the install pass (R147, R150), and what still runs inside the flash
reaches no byte of the current slot. `headersOp` and `entriesOp`, how the load divides its reads and their polls,
are the model's choice (log entry 9). -/
structure ImageOk (s : State) : Prop where
  inReset : s.inReset = true →
    s.image.device = .loading ∧ s.image.loader = .idle ∧ s.image.op = .none ∧ s.image.current = none
      ∧ s.directory = []
  readyLoaded : s.image.device = .ready → s.image.loader = .idle
  loadingNoCheckpoint : s.image.device = .loading →
    s.image.checkpoint = none ∧ s.image.current = none
  noCurrentNoSequence : s.image.current = none → s.image.sequence = 0#32
  target : ∀ c i, s.image.checkpoint = some c → s.image.current = some i → c.target = i.other
  sector : ∀ c k, s.image.checkpoint = some c → c.stage = .erasing k → k < Config.sectors
  unit : ∀ c u position, s.image.checkpoint = some c → c.stage = .writing u position → u < 134
  opOwner : s.image.op.forCheckpoint = true ↔ s.image.checkpoint.isSome = true
  opLoad : s.image.op ≠ .none → s.image.op.forCheckpoint = false → s.image.device = .loading ∧ s.image.loader ≠ .idle
  readQuiet : s.image.op.reading = true → s.flash.running = none
  loadQuiet : s.image.op = .loadRead ∨ s.image.loader = .header1
    ∨ (∃ c, s.image.loader = .checking c ∨ s.image.loader = .installing c) → s.flash.running = none
  headersOp : s.image.loader = .header0 ∨ s.image.loader = .header1 →
    (s.image.op = .loadRead ∧ s.image.loader = .header1) ∨ ∃ t, s.image.op = .poll .loadRead t
  notYetInstalled : s.image.loader = .header0 ∨ s.image.loader = .header1 ∨ (∃ c, s.image.loader = .checking c) →
    s.directory = []
  entriesOp : ∀ c, s.image.loader = .checking c ∨ s.image.loader = .installing c →
    if Config.imageSlotSize < c.offset + 8 then s.image.op = .none
    else s.image.op = .loadRead ∨ ∃ t, s.image.op = .poll .loadRead t
  runUnit : ∀ addr data, s.flash.running = some (.program addr data) → data.length = Config.unitSize
  opUnit : ∀ data, s.image.op.unitData? = some data → data.length = Config.unitSize
  totals : ∀ c, s.image.checkpoint = some c → s.image.totalsOk (checkpointRecords s) c
  runSpares : ∀ run i, s.flash.running = some run → s.image.current = some i →
    ∀ addr, run.reaches addr → ¬ i.holds addr

/-- The invariants of every block together. -/
structure Coherent (s : State) : Prop where
  notes : NotesOk s
  memories : MemoriesOk s
  ports : PortsOk s
  contexts : ContextsOk s
  store : StoreOk s
  pages : PagesOk s
  image : ImageOk s

end Sys2Proof.Machine
end

