-- ==== Sys2Proof/Certificates/Slice0/Obligations.lean ====
section
/-! DEFINITION. The statements for the provers. `replied`, `frameOver`, `stagedReply`, `readyWith` and the
invariants are those of Sys2Proof/Safety.lean. An equation `exec c s = .next t` states the whole frame:
`t` is `s` with the parts that are named changed. -/

open Sys2Proof Sys2Proof.Machine

/-! ### The machine as a whole -/

/-- A step runs the command at the front of the queue on the state with the queue's rest; on an empty queue
the block idles. The queue is the model's own (log entry 8). -/
def Obligations.StepRunsFrontCommand : Prop :=
  (∀ (c : Instr) (rest : List Instr) (s : State), step { s with pending := c :: rest } = exec c { s with pending := rest })
  ∧ ∀ s : State, s.pending = [] → step s = .next s

/-- Every command answers a next state (there is no fault and no stop, log entry 17; a happening whose condition
does not hold changes nothing, log entry 1), leaves the queue of waiting commands as it was, and neither its
effect nor its answer depends on that queue (log entry 8). -/
def Obligations.EveryCommandCompletesWithoutTheQueue : Prop :=
  ∀ (c : Instr) (s : State), ∃ t, exec c s = .next t ∧ t.pending = s.pending
    ∧ ∀ q, exec c { s with pending := q } = .next { t with pending := q }

/-- The invariants hold in device reset. -/
def Obligations.InvariantsHoldAtReset : Prop := Coherent State.reset

/-- Every step keeps the notification state of every port in order: at most 8 entries, no two of the same kind
and tag; at most 16 watched tags, all different; QUEUE set exactly while an entry waits; the line low
exactly while flags and mask meet (chapter 6). -/
def Obligations.NotificationStaysInOrder : Prop :=
  ∀ s t, NotesOk s → step s = .next t → NotesOk t

/-- Every step keeps the page bytes, the reference counts and the flash in canonical form, the model's
form of a memory (log entry 10). -/
def Obligations.MemoriesStayCanonical : Prop :=
  ∀ s t, MemoriesOk s → step s = .next t → MemoriesOk t

/-- Every step keeps the port interfaces and snapshot slots in order: a slot is FRAME only while its port
sends a streaming frame, the view of a streaming frame is held while it lasts, a lapse is pending only
in a read frame, timers run only in their states, the configuration stays in range. -/
def Obligations.PortsStayInOrder : Prop :=
  ∀ s t, Coherent s → step s = .next t → PortsOk t

/-- Every step keeps the contexts, the commit queue and the engine in order: the queue holds exactly the
QUEUED ports, none twice, at most one context is APPLYING or DETACHED and it is the engine's. -/
def Obligations.ContextsStayInOrder : Prop :=
  ∀ s t, Coherent s → step s = .next t → ContextsOk t

/-- Every step keeps the directory and the version table in order: one slot per tag, generations strictly
falling along a chain and none above G, no lone tombstone, every older version seen by a holding
snapshot, the capacities, and what TAKE has promised the publish. -/
def Obligations.StoreStaysInOrder : Prop :=
  ∀ s t, Coherent s → step s = .next t → StoreOk t

/-- Every step keeps the page conservation law and the shape of every page list, the crc of every BLOB and
COUNTER version as the CRC-16 of its body, and what the commit in progress has digested: finished bodies with
the CRC of their bytes, the next one up to a page of it, the others not begun. -/
def Obligations.PagesStayConserved : Prop :=
  ∀ s t, Coherent s → step s = .next t → PagesOk t

/-- Every step keeps the image controller in order: a checkpoint never targets the current slot, nothing running
inside the flash reaches a byte of it, every program sends 256 bytes, and the image totals and the tag position
are those of the records placed in the units filled so far, in SEALING of all the records saved; the store is
empty until the load's install pass. The flash is held in State (log entry 4), a unit is filled when its program is
sent (log entry 15), and how the load divides its reads, each with its own poll and none for a head past the slot,
is the model's choice (log entry 9). -/
def Obligations.ImageControllerStaysInOrder : Prop :=
  ∀ s t, Coherent s → step s = .next t → ImageOk t

/-- While a snapshot holds, what it sees stays: no command of a READY device but a device reset changes the
visible version of any tag at a generation that a HELD or FRAME slot holds before and after, or any
byte of that version's body. -/
def Obligations.HeldViewsStayFixed : Prop :=
  ∀ (c : Instr) (s t : State), Coherent s → s.image.device = .ready → (∀ cause, c ≠ .deviceReset cause) →
    exec c s = .next t → ∀ g ∈ holdingGens s, g ∈ holdingGens t →
      ∀ tag, visible t.directory tag g = visible s.directory tag g
        ∧ ∀ v, visible s.directory tag g = some v → v.body t.pool = v.body s.pool

/-- No command writes a byte of the current image slot, a device reset by loss of power among them. The flash is
held in State (log entry 4). -/
def Obligations.CurrentSlotIsNeverWritten : Prop :=
  ∀ (c : Instr) (s t : State) (i : ImageSlot), Coherent s → exec c s = .next t → s.image.current = some i →
    ∀ addr, i.holds addr → cellRead erasedByte t.flash.mem addr = cellRead erasedByte s.flash.mem addr

/-- The bounds that follow from the invariants: a chain holds at most 6 versions, a page at most 10
references, and an image stream at most 34,240 bytes. -/
def Obligations.InvariantsBoundTheStore : Prop :=
  ∀ s, Coherent s → (∀ d ∈ s.directory, d.chain.length ≤ 6) ∧ (∀ n, s.pool.ref n ≤ 10)
    ∧ ∀ g, streamLength (savedRecords s.directory g) ≤ 34240

/-! ### Device reset and the time base -/

/-- DEVICE_RESET: every block at its device-reset values from any state; RESET_N leaves the flash alone, and so
does a loss of power when nothing runs in it; the waiting commands still wait. The flash and the queue are the
model's fields (log entries 4 and 8). -/
def Obligations.DeviceResetLeavesResetValues : Prop :=
  ∀ (cause : ResetCause) (s : State), ∃ t, exec (.deviceReset cause) s = .next t
    ∧ t.inReset = true
    ∧ (∀ p, t.ifaces.get p = ⟨.idle, none, .released, ⟨.idle, 0x00#8, 0#32, []⟩, .closed, ⟨1000, 2000, 50⟩⟩)
    ∧ (∀ p, t.snaps.get p = ⟨.free, none, false⟩) ∧ t.slot4 = none
    ∧ t.g = 1#32 ∧ t.directory = []
    ∧ (∀ n, t.pool.ref n = 0) ∧ t.pool.free = List.range 1024 ∧ (∀ p, t.pool.stagedOwned.get p = 0)
    ∧ (∀ p, t.txns.get p = ⟨.none, [], none, .none, .none⟩)
    ∧ t.commitQueue = [] ∧ t.engine = .idle
    ∧ (∀ p, t.notes.get p = ⟨[], [], 0, 0#6, 0#6, false⟩)
    ∧ t.image = ⟨.loading, .none, .idle, none, 0#32, none, none, .none⟩
    ∧ (cause = .resetN → t.flash = s.flash)
    ∧ (∀ left, cause = .power left → t.flash.running = none
        ∧ (s.flash.running = none ∨ left = none → t.flash.mem = s.flash.mem))
    ∧ (∀ left start size, cause = .power (some left) → Memory.wf 0xFF#8 s.flash.mem = true →
        (s.flash.running = some (.erase start) ∧ size = 4096)
          ∨ (∃ data, s.flash.running = some (.program start data)) ∧ size = 256 →
        ∀ a, cellRead 0xFF#8 t.flash.mem a
          = if start ≤ a ∧ a < start + min left.length size then left.getD (a - start) 0xFF#8
            else cellRead 0xFF#8 s.flash.mem a)
    ∧ t.pending = s.pending

/-- While device reset is in force nothing happens but its end and a further device reset. At its end the straps
are sampled and the load begins with its status poll, timer 400; with no device reset in force DEVICE_RESET_END
does not happen. That a happening whose condition does not hold changes nothing is log entry 1. -/
def Obligations.OnlyItsEndLeavesDeviceReset : Prop :=
  (∀ (c : Instr) (flash : Flash) (q : List Instr),
      (∀ cause, c ≠ .deviceReset cause) → (∀ adr priv, c ≠ .deviceResetEnd adr priv) →
      exec c { State.reset with flash := flash, pending := q } = .next { State.reset with flash := flash, pending := q })
  ∧ (∀ (adr : BitVec 3) (priv : BitVec 4) (s : State),
      (s.inReset = true → exec (.deviceResetEnd adr priv) s = .next { s with
        inReset := false
        adr := adr
        priv := priv
        image := { s.image with device := .loading, loader := .header0, op := .poll .loadRead (some 400) } })
      ∧ (s.inReset = false → exec (.deviceResetEnd adr priv) s = .next s))

/-- TICK: one happening for every timer of the part, each with one tick fewer left, nothing else changed. A
timer loaded with n is due on the n-th tick and not before, and no tick comes while an expiry of the last one
is still to be taken, so it expires on the n-th tick and on no later one (the form of a timer and of an expiry
is log entry 5). No tick falls in device reset. -/
def Obligations.TickCountsEveryTimer : Prop :=
  (∀ s : State, s.inReset = true → exec .tick s = .next s)
  ∧ (∀ s : State,
      let waits := (∃ p, (s.ifaces.get p).stall = some 0 ∨ (s.snaps.get p).hold = some 0 ∨ (s.txns.get p).idle = some 0)
        ∨ (∃ next, s.image.op = .poll next (some 0)) ∨ (∃ addr, s.image.op = .erase addr (some 0))
        ∨ ∃ addr data, s.image.op = .program addr data (some 0)
      (waits → exec .tick s = .next s)
      ∧ (s.inReset = false → ¬ waits → ∃ t, exec .tick s = .next t
        ∧ (∀ p, t.ifaces.get p = { s.ifaces.get p with stall := (s.ifaces.get p).stall.map (· - 1) })
        ∧ (∀ p, t.snaps.get p = { s.snaps.get p with hold := (s.snaps.get p).hold.map (· - 1) })
        ∧ (∀ p, t.txns.get p = { s.txns.get p with idle := (s.txns.get p).idle.map (· - 1) })
        ∧ (∀ next timer, s.image.op = .poll next timer → t.image.op = .poll next (timer.map (· - 1)))
        ∧ (∀ addr timer, s.image.op = .erase addr timer → t.image.op = .erase addr (timer.map (· - 1)))
        ∧ (∀ addr data timer, s.image.op = .program addr data timer →
            t.image.op = .program addr data (timer.map (· - 1)))
        ∧ (s.image.op = .none ∨ s.image.op = .loadRead ∨ (∃ addr data, s.image.op = .readback addr data) →
            t.image.op = s.image.op)
        ∧ t = { s with
            ifaces := t.ifaces, snaps := t.snaps, txns := t.txns, image := { s.image with op := t.image.op } }))
  ∧ (∀ n, 0 < n → Timer.due (Timer.tick^[n] (Timer.load n)) = true
      ∧ ∀ k, k < n → Timer.due (Timer.tick^[k] (Timer.load n)) = false)
  ∧ ∀ k, Timer.tick^[k] (Timer.load 0) = none

/-! ### Frames on the bus -/

/-- A START on a port with no frame open: its own address, 0x58 plus ADR, is acknowledged and a write frame
begins with an empty receive buffer; any other address is not acknowledged and nothing else changes; in device
reset no address is answered. The bus is modelled byte by byte (log entry 11). -/
def Obligations.StartAnswersOwnAddressOnly : Prop :=
  ∀ (p : Port) (address : BitVec 7) (s : State), (s.ifaces.get p).frame = .idle →
    (s.inReset = true → exec (.writeFrameStart p address) s = .next s ∧ exec (.readFrameStart p address) s = .next s)
    ∧ (s.inReset = false → address.toNat ≠ 0x58 + s.adr.toNat →
        exec (.writeFrameStart p address) s = .next (s.setIface p { s.ifaces.get p with bus := .notAcknowledged })
        ∧ exec (.readFrameStart p address) s = .next (s.setIface p { s.ifaces.get p with bus := .notAcknowledged }))
    ∧ (s.inReset = false → address.toNat = 0x58 + s.adr.toNat →
        exec (.writeFrameStart p address) s = .next (s.setIface p { s.ifaces.get p with
          frame := .receiving (s.ifaces.get p).config.stallLimit []
          stall := Timer.load (s.ifaces.get p).config.stallLimit
          bus := .acknowledged }))

/-- A read frame begins: buffered with no stream open, streaming with one; a HELD slot's hold timer is
reloaded, but where a tick has already left it at 0 the slot first lapses, with retirement, event and flag, and the
frame starts with it LAPSED; a FREE slot becomes FRAME at G for a streaming frame, and the header's result and
generation are fixed from the view: NONE for a tag with no visible version, END at or past its length, END for a SCAN with no
visible record at or above its position, OK otherwise. The visible version is the newest whose generation is
at most the view, when that is no tombstone. -/
def Obligations.ReadFrameStartFixesItsSource : Prop :=
  (∀ (p : Port) (address : BitVec 7) (s : State), s.inReset = false → (s.ifaces.get p).frame = .idle →
      address.toNat = 0x58 + s.adr.toNat →
      let i := s.ifaces.get p
      let slot := s.snaps.get p
      let begun := fun (source : FrameSource) (u : State) => Host.Outcome.next (u.setIface p { i with
        frame := .sending i.config.stallLimit ⟨source, 0, false⟩
        stall := Timer.load i.config.stallLimit
        bus := .acknowledged })
      let reloaded := s.setSnap p { slot with hold := Timer.load i.config.holdTimeout }
      let bound := s.setSnap p { slot with state := .frame s.g }
      let lapsed := fun (g : Gen) => deliver p ⟨.snapLapsed, 0x0000#16, g, .zero⟩ flagLapsed
        (retireOnRelease (s.setSnap p ⟨.lapsed, none, false⟩))
      (∀ g, slot.state = .held g → slot.hold = some 0 →
        (i.stream = .closed → exec (.readFrameStart p address) s = begun .buffered (lapsed g))
        ∧ (i.stream ≠ .closed → exec (.readFrameStart p address) s = begun (.streaming .lapsed 0#32) (lapsed g)))
      ∧ (i.stream = .closed →
        (∀ g, slot.state = .held g → slot.hold ≠ some 0 →
          exec (.readFrameStart p address) s = begun .buffered reloaded)
        ∧ (slot.state = .free ∨ slot.state = .lapsed → exec (.readFrameStart p address) s = begun .buffered s))
      ∧ (∀ tag offset, i.stream = .read tag offset →
        (∀ g, slot.state = .held g → slot.hold ≠ some 0 →
          exec (.readFrameStart p address) s = begun (.streaming (readResult s.directory tag offset g) g) reloaded)
        ∧ (slot.state = .free →
          exec (.readFrameStart p address) s = begun (.streaming (readResult s.directory tag offset s.g) s.g) bound)
        ∧ (slot.state = .lapsed → exec (.readFrameStart p address) s = begun (.streaming .lapsed 0#32) s))
      ∧ (∀ position, i.stream = .scan position →
        (∀ g, slot.state = .held g → slot.hold ≠ some 0 →
          exec (.readFrameStart p address) s = begun (.streaming (scanResult s.directory position g) g) reloaded)
        ∧ (slot.state = .free →
          exec (.readFrameStart p address) s = begun (.streaming (scanResult s.directory position s.g) s.g) bound)
        ∧ (slot.state = .lapsed → exec (.readFrameStart p address) s = begun (.streaming .lapsed 0#32) s)))
  ∧ (∀ (dir : List DirSlot) (tag : Tag) (offset : Nat) (view : Gen),
      (visible dir tag view = none → readResult dir tag offset view = .absent)
      ∧ (∀ v, visible dir tag view = some v →
        (v.length ≤ offset → readResult dir tag offset view = .atEnd)
        ∧ (offset < v.length → readResult dir tag offset view = .ok))
      ∧ ∀ v, visible dir tag view = some v ↔ v.isTombstone = false
        ∧ ∃ newer older, chainOf dir tag = newer ++ v :: older ∧ v.gen ≤ view ∧ ∀ w ∈ newer, view < w.gen)
  ∧ ∀ (dir : List DirSlot) (position : Tag) (view : Gen), (dir.map DirSlot.tag).Pairwise (· < ·) →
    let someVisible := ∃ tag, position ≤ tag ∧ visible dir tag view ≠ none
    (¬ someVisible → scanResult dir position view = .atEnd) ∧ (someVisible → scanResult dir position view = .ok)

/-- A repeated START ends the open frame first: it does what the row of that frame's end does and then what a
START does on the port so left idle. That a START with a frame open is a repeated START is log entry 1. -/
def Obligations.StartEndsTheOpenFrameFirst : Prop :=
  ∀ (p : Port) (s : State) (ending : Instr), s.inReset = false →
    ((∃ limit f, (s.ifaces.get p).frame = .sending limit f) ∧ ending = .readFrameEnd p
      ∨ frameHolds p [] s ∧ ending = .emptyWriteFrame p
      ∨ (∃ c args, frameHolds p (c :: args) s ∧ requestOfCode c = none) ∧ ending = .unknownCodeFrame p
      ∨ ∃ r args, frameHolds p (requestCode r :: args) s ∧ ending = requestRow r p) →
    ∃ t, exec ending s = .next t ∧ (t.ifaces.get p).frame = .idle ∧ t.inReset = false
      ∧ ∀ address, exec (.writeFrameStart p address) s = exec (.writeFrameStart p address) t
        ∧ exec (.readFrameStart p address) s = exec (.readFrameStart p address) t

/-- A data byte below the declared length is acknowledged and stored, any byte past it is neither; both reload
the stall timer with the limit in force at the frame's start, and so does every SCL edge inside a byte, while a
port with no frame open reloads nothing (an edge is an operand of the row, log entry 7). So every byte of a
complete request is stored in order, and surplus bytes behind it change nothing of what is stored. -/
def Obligations.DataBytesAreStoredToTheDeclaredLength : Prop :=
  (∀ (p : Port) (b : Byte) (s : State) (limit : Nat) (bytes : List Byte),
      (s.ifaces.get p).frame = .receiving limit bytes →
      (bytes.length < declaredLength bytes →
        exec (.dataByteReceived p (.byte b)) s = .next (s.setIface p { s.ifaces.get p with
          frame := .receiving limit (bytes ++ [b]), stall := Timer.load limit, bus := .acknowledged }))
      ∧ (declaredLength bytes ≤ bytes.length →
        exec (.dataByteReceived p (.byte b)) s = .next (s.setIface p { s.ifaces.get p with
          stall := Timer.load limit, bus := .notAcknowledged }))
      ∧ exec (.dataByteReceived p .edge) s = .next (s.setIface p { s.ifaces.get p with stall := Timer.load limit }))
  ∧ (∀ (p : Port) (s : State), (s.ifaces.get p).frame = .idle → ∀ b acknowledged,
      exec (.dataByteReceived p b) s = .next s ∧ exec (.byteClockedOut p acknowledged) s = .next s)
  ∧ (∀ (p : Port) (s : State) (limit : Nat) (bytes surplus : List Byte),
      (s.ifaces.get p).frame = .receiving limit [] → bytes.length = declaredLength bytes →
      execAll ((bytes ++ surplus).map (fun b => Instr.dataByteReceived p (.byte b))) s
        = .next (s.setIface p { s.ifaces.get p with
          frame := .receiving limit bytes
          stall := Timer.load limit
          bus := if surplus.isEmpty then .acknowledged else .notAcknowledged }))

/-- A frame that is no request to take changes only its port's interface: MALFORMED when it ends short,
NOT_READY while LOADING for every request but DEVICE_STATUS, UNKNOWN for a code that names none; a
frame with no byte leaves the reply and the stream. -/
def Obligations.UntakenFramesChangeOnlyTheReply : Prop :=
  (∀ (r : Request) (p : Port) (s : State) (args : List Byte), frameHolds p (requestCode r :: args) s →
    (args.length + 1 < declaredLength (requestCode r :: args) →
      exec (requestRow r p) s = .next (replied p .malformed (requestCode r) s.g [] s))
    ∧ (declaredLength (requestCode r :: args) ≤ args.length + 1 → s.image.device = .loading → r ≠ .deviceStatus →
      exec (requestRow r p) s = .next (replied p .notReady (requestCode r) s.g [] s)))
  ∧ (∀ (p : Port) (s : State) (code : Byte) (args : List Byte), frameHolds p (code :: args) s →
    (∀ r, requestCode r ≠ code) → exec (.unknownCodeFrame p) s = .next (replied p .unknown code s.g [] s))
  ∧ ∀ (p : Port) (s : State), frameHolds p [] s → exec (.emptyWriteFrame p) s = .next (frameOver p s)

/-- A byte clocked out of a read frame: of the reply buffer, header then payload then FFh; of a streaming frame,
the fixed header, then body bytes or entries with the cursor moving, then FFh. It counts as sent whether
acknowledged or not; after a byte left unacknowledged the port sends nothing. The stall timer is reloaded at
the byte's end and at every SCL edge inside it (log entry 7). A SCAN's next entry is the visible record of the
lowest tag at or above the position. The result codes are those of Table 10-1. -/
def Obligations.BytesClockedOutFollowTheSource : Prop :=
  (∀ (p : Port) (acknowledged : Bool) (s : State) (limit n : Nat),
      let i := s.ifaces.get p
      let sends := fun (source : FrameSource) (b : Byte) (stream : Stream) =>
        exec (.byteClockedOut p (.byte acknowledged)) s = .next (s.setIface p { i with
          frame := .sending limit ⟨source, n + 1, !acknowledged⟩
          stall := Timer.load limit
          bus := .sent b
          stream := stream })
      (∀ source, i.frame = .sending limit ⟨source, n, true⟩ →
        exec (.byteClockedOut p (.byte acknowledged)) s = .next (s.setIface p { i with stall := Timer.load limit, bus := .released }))
      ∧ (i.frame = .sending limit ⟨.buffered, n, false⟩ →
        sends .buffered ((i.reply.result.code :: i.reply.code :: (be32 i.reply.gen ++ i.reply.payload)).getD n 0xFF#8) i.stream)
      ∧ ∀ result view, i.frame = .sending limit ⟨.streaming result view, n, false⟩ →
        (n < 6 → ∀ code, (∃ tag offset, i.stream = .read tag offset ∧ code = 0x13#8)
            ∨ (∃ position, i.stream = .scan position ∧ code = 0x14#8) →
          sends (.streaming result view) ((result.code :: code :: be32 view).getD n 0xFF#8) i.stream)
        ∧ (6 ≤ n → result ≠ .ok → sends (.streaming result view) 0xFF#8 i.stream)
        ∧ (6 ≤ n → result = .ok →
          (∀ tag offset v, i.stream = .read tag offset → visible s.directory tag view = some v →
            (offset < v.length →
              sends (.streaming result view) ((v.body s.pool).getD offset 0xFF#8) (.read tag (offset + 1)))
            ∧ (v.length ≤ offset → sends (.streaming result view) 0xFF#8 i.stream))
          ∧ (∀ position, i.stream = .scan position →
            (nextVisible s.directory view position = none → sends (.streaming result view) 0xFF#8 i.stream)
            ∧ ∀ tag v head, nextVisible s.directory view position = some (tag, v) → v.head? tag = some head →
              sends (.streaming result view) ((head ++ be32 v.gen).getD ((n - 6) % 12) 0xFF#8)
                (if (n - 6) % 12 = 11 then .scan (tag + 1#16) else .scan position))))
  ∧ (∀ (p : Port) (s : State) (limit : Nat) (f : ReadFrame), (s.ifaces.get p).frame = .sending limit f →
      exec (.byteClockedOut p .edge) s = .next (s.setIface p { s.ifaces.get p with stall := Timer.load limit }))
  ∧ (∀ (dir : List DirSlot) (view : Gen) (position : Tag), (dir.map DirSlot.tag).Pairwise (· < ·) →
      (∀ tag v, nextVisible dir view position = some (tag, v) ↔ position ≤ tag ∧ visible dir tag view = some v
        ∧ ∀ lower, position ≤ lower → lower < tag → visible dir lower view = none)
      ∧ (nextVisible dir view position = none ↔ ∀ tag, position ≤ tag → visible dir tag view = none))
  ∧ [Result.ok, .queued, .idle, .atEnd, .notReady, .malformed, .unknown].map Result.code
    = [0x00#8, 0x01#8, 0x02#8, 0x03#8, 0x10#8, 0x11#8, 0x12#8]
  ∧ [Result.absent, .alreadyExists, .denied, .wrongKind, .range, .deleted].map Result.code
    = [0x20#8, 0x21#8, 0x22#8, 0x23#8, 0x24#8, 0x25#8]
  ∧ [Result.noTxn, .txnOpen, .busy, .tooLate, .limit, .noSpace, .lapsed, .exhausted].map Result.code
    = [0x30#8, 0x31#8, 0x32#8, 0x33#8, 0x34#8, 0x35#8, 0x40#8, 0x41#8]

/-- The end of a read frame: a FRAME slot becomes FREE and a pending lapse is taken, each with retirement;
every other slot stays; the reply, the stream and its cursor stay. -/
def Obligations.ReadFrameEndDealsWithTheSlot : Prop :=
  ∀ (p : Port) (s : State) (limit : Nat) (f : ReadFrame), (s.ifaces.get p).frame = .sending limit f →
    (∀ g, (s.snaps.get p).state = .frame g →
      exec (.readFrameEnd p) s = .next (retireOnRelease ((frameOver p s).setSnap p ⟨.free, none, false⟩)))
    ∧ (∀ g, (s.snaps.get p).state = .held g → (s.snaps.get p).lapsePending = true →
      exec (.readFrameEnd p) s = .next (deliver p ⟨.snapLapsed, 0x0000#16, g, .zero⟩ flagLapsed
        (retireOnRelease ((frameOver p s).setSnap p ⟨.lapsed, none, false⟩))))
    ∧ (∀ g, (s.snaps.get p).state = .held g → (s.snaps.get p).lapsePending = false →
      exec (.readFrameEnd p) s = .next (frameOver p s))
    ∧ ((s.snaps.get p).state = .free ∨ (s.snaps.get p).state = .lapsed →
      exec (.readFrameEnd p) s = .next (frameOver p s))

/-- The stall timer's expiry abandons the open frame: a write frame is discarded with the reply and the
stream as they were, a read frame ends as READ_FRAME_END ends it. A timer that is not due does not
expire (log entries 1 and 5). -/
def Obligations.StallExpiryAbandonsTheFrame : Prop :=
  ∀ (p : Port) (s : State),
    ((s.ifaces.get p).stall = some 0 → (∃ bytes, frameHolds p bytes s) →
      exec (.stallTimerExpiry p) s = .next (frameOver p s))
    ∧ ((s.ifaces.get p).stall = some 0 → (∃ limit f, (s.ifaces.get p).frame = .sending limit f) →
      ∃ t, exec (.stallTimerExpiry p) s = .next t ∧ exec (.readFrameEnd p) s = .next t
        ∧ (t.ifaces.get p).frame = .idle ∧ (t.ifaces.get p).stall = none
        ∧ (t.ifaces.get p).stream = (s.ifaces.get p).stream ∧ (t.ifaces.get p).reply = (s.ifaces.get p).reply)
    ∧ ((s.ifaces.get p).stall ≠ some 0 → exec (.stallTimerExpiry p) s = .next s)

/-! ### CONFIGURE, DEVICE_STATUS, PORT_RESET -/

/-- CONFIGURE sets its four fields together when every one lies in its range, the mask with the line at
once, and otherwise answers RANGE and sets none; running timers go on. DEVICE_STATUS answers OK in every
device state with the fields of its table, their codes those of Table 10-2, and changes nothing but its port's
interface. -/
def Obligations.ConfigureSetsAndDeviceStatusReports : Prop :=
  (∀ (p : Port) (s : State) (idle hold : BitVec 16) (stall mask : Byte),
      readyWith p (0x02#8 :: (be16 idle ++ be16 hold ++ [stall, mask])) s → (s.notes.get p).Ok →
      let i := s.ifaces.get p
      let n := s.notes.get p
      let inRange := idle.toNat ≤ 60000 ∧ hold.toNat ≤ 60000 ∧ 10 ≤ stall.toNat ∧ stall.toNat ≤ 250 ∧ mask.toNat < 64
      (inRange → exec (.configure p) s = .next (replied p .ok 0x02#8 s.g (be16 idle ++ be16 hold ++ [stall, mask])
        ((s.setIface p { i with config := ⟨idle.toNat, hold.toNat, stall.toNat⟩ }).setNote p
          { n with mask := mask.setWidth 6, attnLow := n.flags &&& mask.setWidth 6 != 0#6 })))
      ∧ (¬ inRange → exec (.configure p) s = .next (replied p .range 0x02#8 s.g
        (be16 (BitVec.ofNat 16 i.config.idleTimeout) ++ be16 (BitVec.ofNat 16 i.config.holdTimeout)
          ++ [BitVec.ofNat 8 i.config.stallLimit, n.mask.setWidth 8]) s)))
  ∧ (∀ (p : Port) (s : State), frameHolds p [0x01#8] s →
      exec (.deviceStatus p) s = .next (replied p .ok 0x01#8 s.g
        ([s.image.device.code, s.image.load.code, s.image.load.detailCode,
          (if s.priv.getLsbD p.index then 0x01#8 else 0x00#8),
          stageCode s.image.checkpoint, lastResultCode s.image.last, lastCauseCode s.image.last,
          currentSlotCode s.image.current]
        ++ be32 s.image.sequence ++ be32 s.g ++ be16 (BitVec.ofNat 16 s.pool.free.length)
        ++ be16 (BitVec.ofNat 16 (256 - (s.directory.map (fun d => d.chain.length)).sum - reservedEntries s.engine))
        ++ [BitVec.ofNat 8 (128 - s.directory.length - reservedSlots s.engine), BitVec.ofNat 8 (s.notes.get p).lost]) s))
  ∧ [DeviceState.loading, .ready].map DeviceState.code = [0x00#8, 0x01#8]
  ∧ [LoadResult.none, .loaded, .stoppedPartial, .empty .noImage, .empty .rejected].map
      (fun r => (r.code, r.detailCode))
    = [(0x00#8, 0x00#8), (0x01#8, 0x00#8), (0x02#8, 0x00#8), (0x03#8, 0x01#8), (0x03#8, 0x02#8)]
  ∧ (∀ target records bodyBytes, stageCode none = 0x00#8
      ∧ (∀ k, stageCode (some ⟨.erasing k, target, records, bodyBytes⟩) = 0x01#8)
      ∧ (∀ u position, stageCode (some ⟨.writing u position, target, records, bodyBytes⟩) = 0x02#8)
      ∧ stageCode (some ⟨.sealing, target, records, bodyBytes⟩) = 0x03#8)
  ∧ [none, some ImageResult.saved, some .cancelled, some (.failed .eraseTimeout), some (.failed .programTimeout),
      some (.failed .verify)].map (fun r => (lastResultCode r, lastCauseCode r))
    = [(0x00#8, 0x00#8), (0x01#8, 0x00#8), (0x02#8, 0x00#8), (0x10#8, 0x11#8), (0x10#8, 0x12#8), (0x10#8, 0x13#8)]
  ∧ [none, some ImageSlot.slot0, some .slot1].map currentSlotCode = [0xFF#8, 0x00#8, 0x01#8]

/-- PORT_RESET resets its port's state block by block: the context discarded or DETACHED, the slot FREE with
retirement, the notification state and the interface at reset values with the OK reply; the engine keeps its
commit, with the slots that the retirement frees for it; the other ports, slot 4, G, the image controller and the
flash stay. -/
def Obligations.PortResetClearsItsPort : Prop :=
  ∀ (p : Port) (s : State), Coherent s → readyWith p [0x03#8] s →
    let ctx := s.txns.get p
    let taken := ctx.state = .applying ∨ ctx.state = .detached
    let discarded : State := if ctx.state = .opened ∨ ctx.state = .queued
      then { s with pool := releaseBodies p s.pool ctx.intents } else s
    let released : State := if (s.snaps.get p).state = .free then discarded
      else retireOnRelease (discarded.setSnap p ⟨.free, none, false⟩)
    ∃ t, exec (.portReset p) s = .next t
      ∧ t.ifaces.get p = ⟨.idle, none, .released, ⟨.ok, 0x03#8, s.g, []⟩, .closed, ⟨1000, 2000, 50⟩⟩
      ∧ t.notes.get p = ⟨[], [], 0, 0#6, 0#6, false⟩
      ∧ t.snaps.get p = ⟨.free, none, false⟩
      ∧ (taken → t.txns.get p = ⟨.detached, ctx.intents, none, .none, .none⟩ ∧ t.commitQueue = s.commitQueue)
      ∧ (¬ taken → t.txns.get p = ⟨.none, [], none, .none, .none⟩
          ∧ t.commitQueue = s.commitQueue.filter (fun q => q != p) ∧ t.pool.stagedOwned.get p = 0)
      ∧ t.directory = released.directory ∧ t.pool = released.pool ∧ t.engine = released.engine
      ∧ (∀ q, q ≠ p → t.ifaces.get q = s.ifaces.get q ∧ t.snaps.get q = s.snaps.get q
          ∧ t.txns.get q = s.txns.get q ∧ t.notes.get q = s.notes.get q)
      ∧ t = { s with
          ifaces := t.ifaces, snaps := t.snaps, txns := t.txns, notes := t.notes, commitQueue := t.commitQueue,
          directory := t.directory, pool := t.pool, engine := t.engine }

/-! ### Snapshots and reading -/

/-- SNAP_OPEN binds the slot to G from every state, after the release of an old binding with its retirement;
SNAP_CLOSE frees it, with retirement from HELD and LAPSED and none from FREE. Both report the state the
slot was in. -/
def Obligations.SnapOpenBindsAndSnapCloseFrees : Prop :=
  ∀ (p : Port) (s : State),
    let held : Snap := ⟨.held s.g, Timer.load (s.ifaces.get p).config.holdTimeout, false⟩
    let freed := s.setSnap p ⟨.free, none, false⟩
    (readyWith p [0x10#8] s →
      ((s.snaps.get p).state = .free →
        exec (.snapOpen p) s = .next (replied p .ok 0x10#8 s.g [0x00#8] (s.setSnap p held)))
      ∧ (∀ g, (s.snaps.get p).state = .held g →
        exec (.snapOpen p) s = .next (replied p .ok 0x10#8 s.g [0x01#8] ((retireOnRelease freed).setSnap p held)))
      ∧ ((s.snaps.get p).state = .lapsed →
        exec (.snapOpen p) s = .next (replied p .ok 0x10#8 s.g [0x02#8] ((retireOnRelease freed).setSnap p held))))
    ∧ (readyWith p [0x11#8] s →
      ((s.snaps.get p).state = .free →
        exec (.snapClose p) s = .next (replied p .ok 0x11#8 s.g [0x00#8] freed))
      ∧ (∀ g, (s.snaps.get p).state = .held g →
        exec (.snapClose p) s = .next (replied p .ok 0x11#8 s.g [0x01#8] (retireOnRelease freed)))
      ∧ ((s.snaps.get p).state = .lapsed →
        exec (.snapClose p) s = .next (replied p .ok 0x11#8 s.g [0x02#8] (retireOnRelease freed))))

/-- Retirement at a release: of each chain stay the newest version and those whose window a holding snapshot
sees, a tombstone left alone goes too; the pages of the retired versions are lost chain by chain in ascending
tag order, oldest version first; a slot freed for a CREATED intent of the commit in progress becomes reserved;
nothing else changes. A page lost has one reference less, and joins the tail of the free list when that was its
last; a staged body released loses its pages in list order, each staged-owned one lowering the port's count,
and a context its bodies in intent-list order. -/
def Obligations.ReleaseKeepsExactlyTheSeenVersions : Prop :=
  (∀ s : State, (s.directory.map DirSlot.tag).Pairwise (· < ·) →
      let t := retireOnRelease s
      let seen := fun (x : Version × Version) => (holdingGens s).any (fun g => decide (x.2.gen ≤ g ∧ g < x.1.gen))
      let kept := fun (d : DirSlot) => ((d.chain.zip d.chain.tail).filter seen).map Prod.snd
      let gone := fun (d : DirSlot) => ((d.chain.zip d.chain.tail).filter (fun x => !seen x)).map Prod.snd
      (∀ d ∈ s.directory, ∀ newest older, d.chain = newest :: older →
        chainOf t.directory d.tag
          = if kept d = [] ∧ newest.isTombstone = true then [] else newest :: kept d)
      ∧ (∀ tag, (∀ d ∈ s.directory, d.tag ≠ tag) → chainOf t.directory tag = [])
      ∧ t.pool = s.pool.loseAll (s.directory.flatMap (fun d => (gone d).reverse.flatMap Version.pages))
      ∧ (s.engine = .idle → t.engine = .idle)
      ∧ (∀ c, s.engine = .digesting c → t.engine = .digesting { c with
          reservedSlots := c.reservedSlots
            + (s.directory.countP (fun d => (chainOf t.directory d.tag).isEmpty && decide (d.tag ∈ createdInCommit s))) })
      ∧ t = { s with directory := t.directory, pool := t.pool, engine := t.engine })
  ∧ (∀ (pool : Pool) (n : PageNo), cellsWf 0 pool.refs = true →
      (∀ m, (pool.lose n).ref m = if m = n then pool.ref n - 1 else pool.ref m)
      ∧ (pool.lose n).free = (if pool.ref n = 1 then pool.free ++ [n] else pool.free)
      ∧ (pool.lose n).bytes = pool.bytes ∧ (pool.lose n).stagedOwned = pool.stagedOwned)
  ∧ (∀ pool : Pool, pool.loseAll [] = pool ∧ ∀ n ns, pool.loseAll (n :: ns) = (pool.lose n).loseAll ns)
  ∧ (∀ (pool : Pool) (p : Port) (body : StagedBody), pool.releaseBody p body
      = { pool.loseAll (body.pages.map StagedPage.page) with
          stagedOwned := pool.stagedOwned.set p
            (pool.stagedOwned.get p - body.pages.countP (fun x => x.owned)) })
  ∧ ∀ (p : Port) (pool : Pool), releaseBodies p pool [] = pool
    ∧ ∀ (i : Intent) (rest : List Intent),
      (i.op.body? = none → releaseBodies p pool (i :: rest) = releaseBodies p pool rest)
      ∧ ∀ body, i.op.body? = some body →
        releaseBodies p pool (i :: rest) = releaseBodies p (pool.releaseBody p body) rest

/-- STAT answers from the port's view at once: RANGE for 0x0000 and 0xFFFF, LAPSED, NONE, or the fields of
the visible version; only the reply changes. -/
def Obligations.StatAnswersFromTheView : Prop :=
  ∀ (p : Port) (s : State) (tag : Tag), readyWith p (0x12#8 :: be16 tag) s →
    let answers := fun (r : Result) (payload : List Byte) =>
      exec (.stat p) s = .next (replied p r 0x12#8 s.g payload s)
    (tag = 0x0000#16 ∨ tag = 0xFFFF#16 → answers .range [])
    ∧ (tag ≠ 0x0000#16 → tag ≠ 0xFFFF#16 →
      ((s.snaps.get p).state = .lapsed → answers .lapsed (List.replicate 19 0x00#8))
      ∧ ∀ view, ((s.snaps.get p).state = .held view ∨ (s.snaps.get p).state = .free ∧ view = s.g) →
        (visible s.directory tag view = none → answers .absent (be32 view ++ List.replicate 15 0x00#8))
        ∧ (∀ gen a n pages crc, visible s.directory tag view = some ⟨gen, .blob a n pages crc⟩ →
          answers .ok (be32 view ++ [0x01#8, a.persist.code, a.writers.setWidth 8] ++ be16 (BitVec.ofNat 16 n)
            ++ be16 crc ++ be32 gen ++ [0x00#8, 0x00#8, 0x00#8, 0x00#8]))
        ∧ (∀ gen a x crc, visible s.directory tag view = some ⟨gen, .counter a x crc⟩ →
          answers .ok (be32 view ++ [0x02#8, a.persist.code, a.writers.setWidth 8, 0x00#8, 0x04#8]
            ++ be16 crc ++ be32 gen ++ be32 x)))

/-- READ opens a stream at its tag and offset without a lookup, or answers RANGE for 0x0000 and 0xFFFF; SCAN
opens a stream at any tag position. -/
def Obligations.ReadAndScanOpenTheirStream : Prop :=
  (∀ (p : Port) (s : State) (tag : Tag) (offset : BitVec 16), readyWith p (0x13#8 :: (be16 tag ++ be16 offset)) s →
    (tag = 0x0000#16 ∨ tag = 0xFFFF#16 → exec (.read p) s = .next (replied p .range 0x13#8 s.g [] s))
    ∧ (tag ≠ 0x0000#16 → tag ≠ 0xFFFF#16 → exec (.read p) s = .next (s.setIface p { s.ifaces.get p with
        frame := .idle, stall := none, bus := .released
        reply := ⟨.ok, 0x13#8, s.g, []⟩, stream := .read tag offset.toNat })))
  ∧ ∀ (p : Port) (s : State) (position : Tag), readyWith p (0x14#8 :: be16 position) s →
    exec (.scan p) s = .next (s.setIface p { s.ifaces.get p with
      frame := .idle, stall := none, bus := .released
      reply := ⟨.ok, 0x14#8, s.g, []⟩, stream := .scan position })

/-- The hold timer's expiry in HELD: with no read frame open the slot lapses, with retirement, then the
event and the flag; in a read frame the lapse is pending and the timer stops. A timer that is not due
does not expire (log entries 1 and 5). -/
def Obligations.HoldExpiryLapsesOrDefers : Prop :=
  ∀ (p : Port) (s : State),
    (∀ g, (s.snaps.get p).state = .held g → (s.snaps.get p).hold = some 0 →
      ((∃ limit f, (s.ifaces.get p).frame = .sending limit f) →
        exec (.holdTimerExpiry p) s = .next (s.setSnap p ⟨.held g, none, true⟩))
      ∧ ((∀ limit f, (s.ifaces.get p).frame ≠ .sending limit f) →
        exec (.holdTimerExpiry p) s = .next (deliver p ⟨.snapLapsed, 0x0000#16, g, .zero⟩ flagLapsed
          (retireOnRelease (s.setSnap p ⟨.lapsed, none, false⟩)))))
    ∧ ((s.snaps.get p).hold ≠ some 0 → exec (.holdTimerExpiry p) s = .next s)

/-! ### Transactions -/

/-- BEGIN opens a transaction from NONE, is answered TXN_OPEN in OPEN where it reloads the idle timer, and
BUSY in the other states. Outside OPEN a complete staging request changes nothing but the reply: NO_TXN in
NONE, BUSY in QUEUED, APPLYING and DETACHED, whatever its arguments. -/
def Obligations.BeginOpensAndStagingNeedsOpen : Prop :=
  (∀ (p : Port) (s : State), readyWith p [0x20#8] s →
      let ctx := s.txns.get p
      let timer := Timer.load (s.ifaces.get p).config.idleTimeout
      (ctx.state = .none → exec (.beginTxn p) s = .next (replied p .ok 0x20#8 s.g []
        (s.setTxn p ⟨.opened, [], timer, .none, .none⟩)))
      ∧ (ctx.state = .opened → exec (.beginTxn p) s = .next (replied p .txnOpen 0x20#8 s.g []
        (s.setTxn p { ctx with idle := timer })))
      ∧ (ctx.state = .queued ∨ ctx.state = .applying ∨ ctx.state = .detached →
        exec (.beginTxn p) s = .next (replied p .busy 0x20#8 s.g [] s)))
  ∧ (∀ (r : Request) (p : Port) (s : State) (args : List Byte),
      r ∈ [Request.create, .write, .resize, .add, .delete] → readyWith p (requestCode r :: args) s →
      declaredLength (requestCode r :: args) ≤ args.length + 1 →
      ((s.txns.get p).state = .none →
        exec (requestRow r p) s = .next (replied p .noTxn (requestCode r) s.g [] s))
      ∧ ((s.txns.get p).state = .queued ∨ (s.txns.get p).state = .applying ∨ (s.txns.get p).state = .detached →
        exec (requestRow r p) s = .next (replied p .busy (requestCode r) s.g [] s)))

/-- CREATE in OPEN, in the order of the staging checks: RANGE for the tag and for its fields; DELETED or
EXISTS by the tag's entry; LIMIT; EXISTS for a live record; otherwise a CREATED entry joins the tail. -/
def Obligations.CreateAppendsACreatedIntent : Prop :=
  ∀ (p : Port) (s : State) (tag : Tag) (kind writers persist : Byte),
    readyWith p (0x21#8 :: (be16 tag ++ [kind, writers, persist])) s → (s.txns.get p).state = .opened →
    let ctx := s.txns.get p
    let answers := fun (r : Result) => exec (.create p) s = .next (stagedReply p r 0x21#8 .none s)
    let fieldsOk := (kind = 0x01#8 ∨ kind = 0x02#8) ∧ writers.toNat < 16 ∧ (persist = 0x01#8 ∨ persist = 0x02#8)
    let tagOk := tag ≠ 0x0000#16 ∧ tag ≠ 0xFFFF#16
    (¬ (tagOk ∧ fieldsOk) → answers .range)
    ∧ (tagOk ∧ fieldsOk →
      (∀ i, findIntent ctx.intents tag = some i →
        ((∃ base, i.op = .deleted base) → answers .deleted)
        ∧ ((∀ base, i.op ≠ .deleted base) → answers .alreadyExists))
      ∧ (findIntent ctx.intents tag = none →
        (16 ≤ ctx.intents.length → answers .limit)
        ∧ (ctx.intents.length < 16 →
          ((∃ v, (chainOf s.directory tag).head? = some v ∧ v.isTombstone = false) → answers .alreadyExists)
          ∧ ((∀ v, (chainOf s.directory tag).head? = some v → v.isTombstone = true) →
            exec (.create p) s = .next (stagedReply p .ok 0x21#8 .none (s.setTxn p { ctx with
              intents := ctx.intents ++ [⟨tag, .created
                ⟨writers.setWidth 4, if persist = 0x01#8 then .persistent else .volatile⟩
                (if kind = 0x01#8 then .blob none else .counter 0)⟩] }))))))

/-- What WRITE and RESIZE start from: by the tag's entry, a CREATED BLOB's body (empty at first) or a WRITTEN
one's, KIND for a counter's, DELETED; with no entry LIMIT, NONE for a tag that is not live, KIND for a
COUNTER, DENIED without permission, and a copy of the newest version otherwise. -/
def Obligations.BodyRequestsStartFromEntryOrRecord : Prop :=
  ∀ (p : Port) (tag : Tag) (s : State),
    let ctx := s.txns.get p
    (∀ i, findIntent ctx.intents tag = some i →
      (∀ a, i.op = .created a (.blob none) → findStart p tag s = .ok (.entry i.op ⟨0, []⟩))
      ∧ (∀ a body, i.op = .created a (.blob (some body)) → findStart p tag s = .ok (.entry i.op body))
      ∧ (∀ base body, i.op = .written base body → findStart p tag s = .ok (.entry i.op body))
      ∧ ((∃ a d, i.op = .created a (.counter d)) ∨ (∃ base d, i.op = .added base d) →
        findStart p tag s = .error (.plain .wrongKind))
      ∧ ((∃ base, i.op = .deleted base) → findStart p tag s = .error (.plain .deleted)))
    ∧ (findIntent ctx.intents tag = none →
      (16 ≤ ctx.intents.length → findStart p tag s = .error (.plain .limit))
      ∧ (ctx.intents.length < 16 →
        ((∀ v, (chainOf s.directory tag).head? = some v → v.isTombstone = true) →
          findStart p tag s = .error (.plain .absent))
        ∧ (∀ gen a x crc, (chainOf s.directory tag).head? = some ⟨gen, .counter a x crc⟩ →
          findStart p tag s = .error (.plain .wrongKind))
        ∧ (∀ gen a n pages crc, (chainOf s.directory tag).head? = some ⟨gen, .blob a n pages crc⟩ →
          (a.writers.getLsbD p.index = false ∧ s.priv.getLsbD p.index = false →
            findStart p tag s = .error (.plain .denied))
          ∧ (a.writers.getLsbD p.index = true ∨ s.priv.getLsbD p.index = true →
            findStart p tag s = .ok (.firstTouch gen n pages)))))

/-- WRITE in OPEN: RANGE for the tag and the count, the refusals of its start, RANGE for the offset, NOSPACE
with its detail when the pool refuses the claim and nothing changed, and otherwise the claim's pool and
body in the tag's entry: a CREATED entry stays CREATED with its attributes, a WRITTEN one keeps its base, each
changed in its place, and a first touch appends a WRITTEN entry with the base it started from. -/
def Obligations.WriteStagesItsBytes : Prop :=
  ∀ (p : Port) (s : State) (tag : Tag) (offset : BitVec 16) (count : Byte) (data : List Byte),
    readyWith p (0x22#8 :: (be16 tag ++ be16 offset ++ [count] ++ data)) s → (s.txns.get p).state = .opened →
    let ctx := s.txns.get p
    let refused := fun (r : Result) (detail : StagingDetail) =>
      exec (.write p) s = .next (stagedReply p r 0x22#8 detail s)
    let tagOk := tag ≠ 0x0000#16 ∧ tag ≠ 0xFFFF#16
    let countOk := 1 ≤ count.toNat ∧ count.toNat ≤ 64
    (data = [] → ¬ countOk → refused .range .none)
    ∧ (data.length = count.toNat → countOk →
      (¬ tagOk → refused .range .none)
      ∧ (tagOk →
        (∀ r, findStart p tag s = .error (.plain r) → refused r .none)
        ∧ ∀ start, findStart p tag s = .ok start →
          (start.length < offset.toNat ∨ 2048 < offset.toNat + count.toNat → refused .range .none)
          ∧ (offset.toNat ≤ start.length ∧ offset.toNat + count.toNat ≤ 2048 →
            let claim := stagedClaim p s.pool start.body (writeBody offset.toNat data (start.pool s.pool) start.body)
            (∀ detail, claim = .error detail → refused .noSpace detail)
            ∧ (∀ pool body, claim = .ok (pool, body) →
              let becomes := fun (intents : List Intent) => exec (.write p) s = .next (stagedReply p .ok 0x22#8 .none
                ({ s with pool := pool }.setTxn p { ctx with intents := intents }))
              (∀ a b old, start = .entry (.created a (.blob b)) old →
                becomes (changeIntent ctx.intents tag (.created a (.blob (some body)))))
              ∧ (∀ base b old, start = .entry (.written base b) old →
                becomes (changeIntent ctx.intents tag (.written base body)))
              ∧ (∀ base n pages, start = .firstTouch base n pages →
                becomes (ctx.intents ++ [⟨tag, .written base body⟩]))))))

/-- RESIZE in OPEN: RANGE for the tag and for a length above 2048, the refusals of its start, NOSPACE with its
detail, and otherwise the claim's pool and body in the tag's entry, which stays CREATED with its attributes or
WRITTEN with its base, or is appended WRITTEN at a first touch. -/
def Obligations.ResizeStagesItsLength : Prop :=
  ∀ (p : Port) (s : State) (tag : Tag) (length : BitVec 16),
    readyWith p (0x23#8 :: (be16 tag ++ be16 length)) s → (s.txns.get p).state = .opened →
    let ctx := s.txns.get p
    let refused := fun (r : Result) (detail : StagingDetail) =>
      exec (.resize p) s = .next (stagedReply p r 0x23#8 detail s)
    let argsOk := tag ≠ 0x0000#16 ∧ tag ≠ 0xFFFF#16 ∧ length.toNat ≤ 2048
    (¬ argsOk → refused .range .none)
    ∧ (argsOk →
      (∀ r, findStart p tag s = .error (.plain r) → refused r .none)
      ∧ ∀ start, findStart p tag s = .ok start →
        let claim := stagedClaim p s.pool start.body (resizeBody length.toNat (start.pool s.pool) start.body)
        (∀ detail, claim = .error detail → refused .noSpace detail)
        ∧ (∀ pool body, claim = .ok (pool, body) →
          let becomes := fun (intents : List Intent) => exec (.resize p) s = .next (stagedReply p .ok 0x23#8 .none
            ({ s with pool := pool }.setTxn p { ctx with intents := intents }))
          (∀ a b old, start = .entry (.created a (.blob b)) old →
            becomes (changeIntent ctx.intents tag (.created a (.blob (some body)))))
          ∧ (∀ base b old, start = .entry (.written base b) old →
            becomes (changeIntent ctx.intents tag (.written base body)))
          ∧ (∀ base n pages, start = .firstTouch base n pages →
            becomes (ctx.intents ++ [⟨tag, .written base body⟩]))))

/-- What a claim makes of the staged body it starts from, the body of the tag's entry, an empty one for a CREATED
BLOB, or at a first touch the copy of the newest version's length and page list: a WRITE puts its data at the
offset and leaves the other bytes, a RESIZE keeps the bytes below the new length and gives 0x00 above the old
one; the pages stay in order, the tail is clear, and no staged body of another port or tag and no version
changes a byte. -/
def Obligations.ClaimsChangeOnlyTheirBody : Prop :=
  ∀ (p : Port) (tag : Tag) (s : State) (start : Start) (pool' : Pool) (body' : StagedBody),
    PagesOk s → MemoriesOk s → findStart p tag s = .ok start →
    let body := start.body
    let pool := start.pool s.pool
    let others :=
      (∀ q i b, i ∈ (s.txns.get q).intents → i.op.body? = some b → ¬ (q = p ∧ i.tag = tag) →
        pool'.body b.pageNos b.length = s.pool.body b.pageNos b.length)
      ∧ ∀ d ∈ s.directory, ∀ v ∈ d.chain, v.body pool' = v.body s.pool
    (∀ op old, start = .entry op old → body = old ∧ pool = s.pool)
    ∧ (∀ base n pages, start = .firstTouch base n pages → body = ⟨n, pages.map (fun x => ⟨x, false⟩)⟩
        ∧ pool.bytes = s.pool.bytes ∧ pool.free = s.pool.free ∧ pool.stagedOwned = s.pool.stagedOwned
        ∧ ∀ m, pool.ref m = s.pool.ref m + pages.count m)
    ∧ (∀ offset data, data ≠ [] → offset ≤ body.length → offset + data.length ≤ 2048 →
      writeBody offset data pool body = some (pool', body') →
      body'.length = max body.length (offset + data.length) ∧ body'.listOk
      ∧ (∀ k, k < body'.length → pool'.bodyByte body'.pageNos k
          = if offset ≤ k ∧ k < offset + data.length then data.getD (k - offset) 0x00#8
            else s.pool.bodyByte body.pageNos k)
      ∧ tailClear pool' body'.length body'.pageNos ∧ others)
    ∧ (∀ length, length ≤ 2048 → resizeBody length pool body = some (pool', body') →
      body'.length = length ∧ body'.listOk
      ∧ (∀ k, k < length → pool'.bodyByte body'.pageNos k
          = if k < body.length then s.pool.bodyByte body.pageNos k else 0x00#8)
      ∧ tailClear pool' body'.length body'.pageNos ∧ others)

/-- When the pool refuses a claim of WRITE or RESIZE, on the body of an entry or at a first touch: PAGES exactly
when the free list with the pages that the claim itself frees is shorter than the pages it allocates; otherwise
QUOTA exactly when the port's staged-owned count, less the staged-owned pages removed, would pass 256. A granted
claim takes its pages from the head of the free list, the freed ones having joined the tail. A WRITE allocates
the pages touched beyond the end and those of count above 1; a growing RESIZE the pages added; a shrinking one
removes those past the new end and allocates a copy of a shared new last page whose tail it clears. -/
def Obligations.WriteClaimsAreRefusedForPagesThenQuota : Prop :=
  ∀ (p : Port) (tag : Tag) (s : State) (start : Start), PagesOk s → MemoriesOk s → findStart p tag s = .ok start →
    let body := start.body
    let pool := start.pool s.pool
    let shared := fun (k : Nat) => match body.pages[k]? with
      | none => false
      | some x => decide (1 < pool.ref x.page)
    let judged := fun (claim : Except StagingDetail (Pool × StagedBody)) (removed : List StagedPage) (allocates : Nat) =>
      let freed := (removed.map StagedPage.page).filter (fun n => decide (pool.ref n = 1))
      let removedOwned := removed.countP (fun x => x.owned)
      (claim = .error .pages ↔ s.pool.free.length + freed.length < allocates)
      ∧ (claim = .error .quota ↔ allocates ≤ s.pool.free.length + freed.length
          ∧ 256 + removedOwned < s.pool.stagedOwned.get p + allocates)
      ∧ ∀ pool' body', claim = .ok (pool', body') →
        pool'.free = (s.pool.free ++ freed).drop allocates
        ∧ pool'.stagedOwned.get p + removedOwned = s.pool.stagedOwned.get p + allocates
        ∧ ∀ q, q ≠ p → pool'.stagedOwned.get q = s.pool.stagedOwned.get q
    (∀ offset data, data ≠ [] → data.length ≤ 64 → offset ≤ body.length → offset + data.length ≤ 2048 →
      let touched := (List.range ((offset + data.length - 1) / 32 + 1)).filter (fun k => decide (offset / 32 ≤ k))
      judged (stagedClaim p s.pool body (writeBody offset data pool body)) []
        (touched.countP (fun k => decide (body.pages.length ≤ k) || shared k)))
    ∧ ∀ length, length ≤ 2048 →
      let needed := (length + 31) / 32
      let claim := stagedClaim p s.pool body (resizeBody length pool body)
      (body.length ≤ length → judged claim [] (needed - (body.length + 31) / 32))
      ∧ (length < body.length → judged claim (body.pages.drop needed)
          (if length % 32 ≠ 0 ∧ shared (needed - 1) = true then 1 else 0))

/-- ADD in OPEN: RANGE for the tag, DELETED and KIND by the entry, the delta accumulated and held within the
signed 32-bit range; with no entry LIMIT, NONE, KIND, DENIED, or an ADDED entry with its base. -/
def Obligations.AddAccumulatesItsDelta : Prop :=
  ∀ (p : Port) (s : State) (tag : Tag) (delta : BitVec 32),
    readyWith p (0x24#8 :: (be16 tag ++ be32 delta)) s → (s.txns.get p).state = .opened →
    let ctx := s.txns.get p
    let refused := fun (r : Result) => exec (.add p) s = .next (stagedReply p r 0x24#8 .none s)
    let becomes := fun (intents : List Intent) =>
      exec (.add p) s = .next (stagedReply p .ok 0x24#8 .none (s.setTxn p { ctx with intents := intents }))
    let sum := fun (d : Int) => max (-2147483648) (min 2147483647 (d + delta.toInt))
    (tag = 0x0000#16 ∨ tag = 0xFFFF#16 → refused .range)
    ∧ (tag ≠ 0x0000#16 → tag ≠ 0xFFFF#16 →
      (∀ i, findIntent ctx.intents tag = some i →
        (∀ a d, i.op = .created a (.counter d) →
          becomes (changeIntent ctx.intents tag (.created a (.counter (sum d)))))
        ∧ (∀ base d, i.op = .added base d → becomes (changeIntent ctx.intents tag (.added base (sum d))))
        ∧ ((∃ a b, i.op = .created a (.blob b)) ∨ (∃ base b, i.op = .written base b) → refused .wrongKind)
        ∧ ((∃ base, i.op = .deleted base) → refused .deleted))
      ∧ (findIntent ctx.intents tag = none →
        (16 ≤ ctx.intents.length → refused .limit)
        ∧ (ctx.intents.length < 16 →
          ((∀ v, (chainOf s.directory tag).head? = some v → v.isTombstone = true) → refused .absent)
          ∧ (∀ gen a n pages crc, (chainOf s.directory tag).head? = some ⟨gen, .blob a n pages crc⟩ →
            refused .wrongKind)
          ∧ (∀ gen a x crc, (chainOf s.directory tag).head? = some ⟨gen, .counter a x crc⟩ →
            (a.writers.getLsbD p.index = false ∧ s.priv.getLsbD p.index = false → refused .denied)
            ∧ (a.writers.getLsbD p.index = true ∨ s.priv.getLsbD p.index = true →
              becomes (ctx.intents ++ [⟨tag, .added gen delta.toInt⟩]))))))

/-- DELETE in OPEN: RANGE for the tag; a WRITTEN or ADDED entry becomes DELETED and keeps its base, a CREATED
one leaves the list, each staged body released; a DELETED one gives DELETED; with no entry LIMIT, NONE,
DENIED, or a DELETED entry with its base. -/
def Obligations.DeleteStagesOrDropsAnIntent : Prop :=
  ∀ (p : Port) (s : State) (tag : Tag),
    readyWith p (0x25#8 :: be16 tag) s → (s.txns.get p).state = .opened →
    let ctx := s.txns.get p
    let refused := fun (r : Result) => exec (.delete p) s = .next (stagedReply p r 0x25#8 .none s)
    let becomes := fun (pool : Pool) (intents : List Intent) =>
      exec (.delete p) s = .next (stagedReply p .ok 0x25#8 .none
        ({ s with pool := pool }.setTxn p { ctx with intents := intents }))
    (tag = 0x0000#16 ∨ tag = 0xFFFF#16 → refused .range)
    ∧ (tag ≠ 0x0000#16 → tag ≠ 0xFFFF#16 →
      (∀ i, findIntent ctx.intents tag = some i →
        (∀ base body, i.op = .written base body →
          becomes (s.pool.releaseBody p body) (changeIntent ctx.intents tag (.deleted base)))
        ∧ (∀ base d, i.op = .added base d → becomes s.pool (changeIntent ctx.intents tag (.deleted base)))
        ∧ (∀ a body, i.op = .created a (.blob (some body)) →
          becomes (s.pool.releaseBody p body) (ctx.intents.filter (fun x => x.tag != tag)))
        ∧ ((∃ a, i.op = .created a (.blob none)) ∨ (∃ a d, i.op = .created a (.counter d)) →
          becomes s.pool (ctx.intents.filter (fun x => x.tag != tag)))
        ∧ ((∃ base, i.op = .deleted base) → refused .deleted))
      ∧ (findIntent ctx.intents tag = none →
        (16 ≤ ctx.intents.length → refused .limit)
        ∧ (ctx.intents.length < 16 →
          ((∀ v, (chainOf s.directory tag).head? = some v → v.isTombstone = true) → refused .absent)
          ∧ (∀ v a, (chainOf s.directory tag).head? = some v → v.attrs? = some a →
            (a.writers.getLsbD p.index = false ∧ s.priv.getLsbD p.index = false → refused .denied)
            ∧ (a.writers.getLsbD p.index = true ∨ s.priv.getLsbD p.index = true →
              becomes s.pool (ctx.intents ++ [⟨tag, .deleted v.gen⟩]))))))

/-- COMMIT: in OPEN with an empty list it ends the transaction COMMITTED at G with no entry in the queue, no
publish and no event; with intents the context becomes QUEUED at the tail of the queue; NO_TXN and BUSY
in the other states. -/
def Obligations.CommitEndsAnEmptyTransactionAtOnce : Prop :=
  ∀ (p : Port) (s : State), readyWith p [0x26#8] s →
    let ctx := s.txns.get p
    (ctx.state = .opened → ctx.intents = [] → exec (.commit p) s = .next (replied p .ok 0x26#8 s.g []
      (s.setTxn p ⟨.none, [], none, ctx.refusal, .committed s.g⟩)))
    ∧ (ctx.state = .opened → ctx.intents ≠ [] → exec (.commit p) s = .next (replied p .queued 0x26#8 s.g []
      ({ s with commitQueue := s.commitQueue ++ [p] }.setTxn p { ctx with state := .queued, idle := none })))
    ∧ (ctx.state = .none → exec (.commit p) s = .next (replied p .noTxn 0x26#8 s.g [] s))
    ∧ (ctx.state = .queued ∨ ctx.state = .applying ∨ ctx.state = .detached →
      exec (.commit p) s = .next (replied p .busy 0x26#8 s.g [] s))

/-- ABORT in OPEN discards the transaction: every staged body released in intent-list order, the staged-owned
count 0, the list empty, the timer stopped, outcome ABORTED, no event and no flag. In QUEUED it withdraws the
port's entry and the other entries keep their order; in APPLYING and DETACHED it is answered TOO_LATE and in
NONE NO_TXN, with nothing changed. -/
def Obligations.AbortDiscardsOrWithdraws : Prop :=
  (∀ (p : Port) (s : State), readyWith p [0x27#8] s → (s.txns.get p).state = .opened →
      exec (.abort p) s = .next (replied p .ok 0x27#8 s.g []
        ({ s with pool := releaseBodies p s.pool (s.txns.get p).intents }.setTxn p
          ⟨.none, [], none, (s.txns.get p).refusal, .aborted⟩))
      ∧ (PagesOk s → (releaseBodies p s.pool (s.txns.get p).intents).stagedOwned.get p = 0))
  ∧ (∀ (p : Port) (s : State), readyWith p [0x27#8] s →
      ((s.txns.get p).state = .queued → exec (.abort p) s = .next (replied p .ok 0x27#8 s.g []
        ({ s with
            commitQueue := s.commitQueue.filter (fun q => q != p)
            pool := releaseBodies p s.pool (s.txns.get p).intents }.setTxn p
          ⟨.none, [], none, (s.txns.get p).refusal, .withdrawn⟩)))
      ∧ ((s.txns.get p).state = .applying ∨ (s.txns.get p).state = .detached →
        exec (.abort p) s = .next (replied p .tooLate 0x27#8 s.g [] s))
      ∧ ((s.txns.get p).state = .none → exec (.abort p) s = .next (replied p .noTxn 0x27#8 s.g [] s)))

/-- TXN_STATUS reports the context in every state, with the staging refusal detail in OPEN and the outcome's
detail in the others; in OPEN it reloads the idle timer; nothing else changes. The codes are those of Table 10-2,
and absent fields are 0. -/
def Obligations.TxnStatusReportsTheContext : Prop :=
  (∀ (p : Port) (s : State), readyWith p [0x28#8] s →
      let ctx := s.txns.get p
      let fields := fun (detail : Byte) =>
        [ctx.state.code, ctx.outcome.name.code, detail, BitVec.ofNat 8 ctx.intents.length]
          ++ be16 (BitVec.ofNat 16 (s.pool.stagedOwned.get p)) ++ be16 ctx.outcome.conflictTag ++ be32 ctx.outcome.gen
      (ctx.state = .opened → exec (.txnStatus p) s = .next (replied p .ok 0x28#8 s.g (fields ctx.refusal.code)
        (s.setTxn p { ctx with idle := Timer.load (s.ifaces.get p).config.idleTimeout })))
      ∧ (ctx.state ≠ .opened →
        exec (.txnStatus p) s = .next (replied p .ok 0x28#8 s.g (fields ctx.outcome.detailCode) s)))
  ∧ [CtxState.none, .opened, .queued, .applying, .detached].map CtxState.code
    = [0x00#8, 0x01#8, 0x02#8, 0x03#8, 0x04#8]
  ∧ [StagingDetail.none, .pages, .quota].map StagingDetail.code = [0x00#8, 0x06#8, 0x07#8]
  ∧ (∀ g tag, [TxnOutcome.none, .committed g, .conflict tag .changed, .conflict tag .alreadyExists, .conflict tag .gone,
      .noSpace .versions, .noSpace .slots, .withdrawn, .aborted, .timedOut, .exhausted].map
        (fun o => (o.name.code, o.detailCode, o.conflictTag, o.gen))
    = [(0x00#8, 0x00#8, 0x0000#16, 0#32), (0x01#8, 0x00#8, 0x0000#16, g), (0x02#8, 0x01#8, tag, 0#32),
      (0x02#8, 0x02#8, tag, 0#32), (0x02#8, 0x03#8, tag, 0#32), (0x03#8, 0x04#8, 0x0000#16, 0#32),
      (0x03#8, 0x05#8, 0x0000#16, 0#32), (0x04#8, 0x00#8, 0x0000#16, 0#32), (0x05#8, 0x00#8, 0x0000#16, 0#32),
      (0x06#8, 0x00#8, 0x0000#16, 0#32), (0x07#8, 0x00#8, 0x0000#16, 0#32)])

/-- The idle timer's expiry in OPEN ends the transaction TIMED_OUT: bodies released first, then TXN_TIMEOUT
and TXN_ENDED at its port; no retirement, no record changed. A timer that is not due does not expire
(log entries 1 and 5). -/
def Obligations.IdleExpiryEndsTheTransaction : Prop :=
  ∀ (p : Port) (s : State),
    ((s.txns.get p).state = .opened → (s.txns.get p).idle = some 0 →
      exec (.idleTimerExpiry p) s = .next (deliver p ⟨.txnTimeout, 0x0000#16, 0#32, .outcome .timedOut⟩ flagTxnEnded
        ({ s with pool := releaseBodies p s.pool (s.txns.get p).intents }.setTxn p
          ⟨.none, [], none, (s.txns.get p).refusal, .timedOut⟩)))
    ∧ ((s.txns.get p).idle ≠ some 0 → exec (.idleTimerExpiry p) s = .next s)

/-! ### The commit engine -/

/-- TAKE validates the head in order: G, each intent in list order, the version entries, the slots. The first
failure rejects the transaction at once, its bodies released and COMMIT_DONE and TXN_ENDED at its port;
when all pass, entries and slots are reserved and DIGESTING begins with the staged bodies that hold a page, in
intent-list order. -/
def Obligations.TakeValidatesInOrder : Prop :=
  ∀ (p : Port) (rest : List Port) (s : State), s.engine = .idle → s.commitQueue = p :: rest →
    let ctx := s.txns.get p
    let needed := ctx.intents.countP (fun i =>
      match i.op with
      | .created _ _ => (chainOf s.directory i.tag).isEmpty
      | .written .. | .added .. | .deleted .. => false)
    let digests := ctx.intents.flatMap (fun i =>
      match i.op with
      | .created _ (.blob (some b)) | .written _ b => if b.pages = [] then [] else [Digest.mk i.tag b.pageNos b.length 0xFFFF#16]
      | .created _ (.blob none) | .created _ (.counter _) | .added .. | .deleted _ => [])
    let rejects := fun (o : TxnOutcome) =>
      exec .take s = .next (deliver p ⟨.commitDone, 0x0000#16, 0#32, .outcome o.name⟩ flagTxnEnded
        ({ s with commitQueue := rest, pool := releaseBodies p s.pool ctx.intents }.setTxn p
          ⟨.none, [], none, ctx.refusal, o⟩))
    (s.g = 0xFFFFFFFF#32 → rejects .exhausted)
    ∧ (s.g ≠ 0xFFFFFFFF#32 → ∀ before i behind, ctx.intents = before ++ i :: behind →
        (∀ x ∈ before, passesTake s.directory x) → ¬ passesTake s.directory i →
        rejects (.conflict i.tag (conflictDetail s.directory i)))
    ∧ (s.g ≠ 0xFFFFFFFF#32 → (∀ x ∈ ctx.intents, passesTake s.directory x) →
      (256 - entriesInUse s.directory < ctx.intents.length → rejects (.noSpace .versions))
      ∧ (ctx.intents.length ≤ 256 - entriesInUse s.directory →
        (128 - s.directory.length < needed → rejects (.noSpace .slots))
        ∧ (needed ≤ 128 - s.directory.length → exec .take s = .next ({ s with
            commitQueue := rest
            engine := .digesting ⟨p, ctx.intents.length, needed, digests, []⟩ }.setTxn p
              { ctx with state := .applying }))))

/-- PAGE_DIGESTED feeds one page of the body in progress into its running CRC, and keeps the CRC of a body
whose last page it was; nothing else changes. As many of them as a body has pages give the CRC-16 of
its bytes. -/
def Obligations.DigestGivesTheCrcOfTheBody : Prop :=
  (∀ (s : State) (c : Commit) (d : Digest) (others : List Digest) (page : PageNo) (pages : List PageNo),
    s.engine = .digesting c → c.todo = d :: others → d.pages = page :: pages →
    let crc := crcFeed d.crc ((s.pool.page page).take d.bytesLeft)
    (pages = [] → exec .pageDigested s = .next { s with
      engine := .digesting { c with todo := others, done := c.done ++ [(d.tag, crc)] } })
    ∧ (pages ≠ [] → exec .pageDigested s = .next { s with
      engine := .digesting { c with todo := ⟨d.tag, pages, d.bytesLeft - 32, crc⟩ :: others } }))
  ∧ ∀ (pool : Pool) (c : Commit) (tag : Tag) (pages : List PageNo) (length : Nat) (others : List Digest),
    0 < length → pages.length = pagesFor length → c.todo = ⟨tag, pages, length, 0xFFFF#16⟩ :: others →
    (Commit.digestPage pool)^[pages.length] c
      = { c with todo := others, done := c.done ++ [(tag, crc16 (pool.body pages length))] }

/-- PUBLISH, when every page has been digested: G rises by 1, each intent's version is the newest of its tag
with the contents of its operation and is what the new G sees, other tags keep their newest, the
context and the engine are done, the outcome and COMMIT_DONE go to an APPLYING committer alone, and
then each record event to the ports that watch its tag. Of a changed record's chain the previous newest
goes when no holding snapshot sees it, a tombstone then left alone too, and nothing older; the pages of those
retired are lost in ascending tag order, from a pool that has handed the staged lists over. -/
def Obligations.PublishInstallsAndTells : Prop :=
  ∀ (s : State) (c : Commit), Coherent s → s.engine = .digesting c → c.todo = [] →
    let ctx := s.txns.get c.port
    let unseen := fun (prev : Version) => !(holdingGens s).any (fun g => decide (prev.gen ≤ g ∧ g < s.g + 1#32))
    let lost := s.directory.flatMap (fun d =>
      match d.chain with
      | [] => []
      | prev :: _ => if d.tag ∈ ctx.intents.map Intent.tag ∧ unseen prev = true then prev.pages else [])
    let told := fun (q : Port) =>
      if q = c.port ∧ ctx.state = .applying then
        ((s.notes.get q).arrive ⟨.commitDone, 0x0000#16, s.g + 1#32, .outcome .committed⟩).raise flagTxnEnded
      else s.notes.get q
    ∃ t, exec .publish s = .next t
      ∧ t.g = s.g + 1#32 ∧ t.engine = .idle
      ∧ t.txns.get c.port = ⟨.none, [], none, ctx.refusal,
          if ctx.state = .applying then .committed (s.g + 1#32) else .none⟩
      ∧ (∀ i ∈ ctx.intents, visible t.directory i.tag t.g
          = match i.op with
            | .deleted _ => none
            | .created .. | .written .. | .added .. =>
              some (Version.mk (s.g + 1#32) (installedContent s.directory c.done i)))
      ∧ (∀ tag, (∀ i ∈ ctx.intents, i.tag ≠ tag) → chainOf t.directory tag = chainOf s.directory tag)
      ∧ (∀ i ∈ ctx.intents,
        let new : Version := ⟨s.g + 1#32, installedContent s.directory c.done i⟩
        chainOf t.directory i.tag
          = match chainOf s.directory i.tag with
            | [] => [new]
            | prev :: older =>
              if unseen prev = true then (if older = [] ∧ new.isTombstone = true then [] else new :: older)
              else new :: prev :: older)
      ∧ t.pool = { s.pool with stagedOwned := s.pool.stagedOwned.set c.port 0 }.loseAll lost
      ∧ t.pool.stagedOwned.get c.port = 0
      ∧ (∀ q, t.notes.get q = ((ctx.intents.filter (fun i => decide (i.tag ∈ (s.notes.get q).watches))).map
          (fun i => Event.mk i.op.eventKind i.tag (s.g + 1#32) .zero)).foldl Notify.arrive (told q))
      ∧ (∀ q, q ≠ c.port → t.txns.get q = s.txns.get q ∧ t.pool.stagedOwned.get q = s.pool.stagedOwned.get q)
      ∧ t = { s with
          g := t.g, engine := t.engine, txns := t.txns, directory := t.directory, pool := t.pool, notes := t.notes }

/-- The contents that PUBLISH installs, by operation: the create attributes or those of the version replaced,
the staged length and list with their digest, the counter's sum held within 0 to 0xFFFFFFFF with the CRC over its
four bytes. With no digest kept the CRC is 0xFFFF: R105's value for a body of length 0, and for a body with bytes,
which always has a digest by then, the model's choice (log entry 13). -/
def Obligations.InstalledContentsFollowTheOperation : Prop :=
  ∀ (dir : List DirSlot) (done : List (Tag × Crc)) (i : Intent),
    (∀ a, i.op = .created a (.blob none) → installedContent dir done i = .blob a 0 [] 0xFFFF#16)
    ∧ (∀ a body crc, i.op = .created a (.blob (some body)) → done.lookup i.tag = some crc →
      installedContent dir done i = .blob a body.length body.pageNos crc)
    ∧ (∀ a body, i.op = .created a (.blob (some body)) → done.lookup i.tag = none →
      installedContent dir done i = .blob a body.length body.pageNos 0xFFFF#16)
    ∧ (∀ base body gen a n pages crc crc', i.op = .written base body →
      (chainOf dir i.tag).head? = some (Version.mk gen (.blob a n pages crc)) → done.lookup i.tag = some crc' →
      installedContent dir done i = .blob a body.length body.pageNos crc')
    ∧ (∀ base body gen a n pages crc, i.op = .written base body →
      (chainOf dir i.tag).head? = some (Version.mk gen (.blob a n pages crc)) → done.lookup i.tag = none →
      installedContent dir done i = .blob a body.length body.pageNos 0xFFFF#16)
    ∧ (∀ a d, i.op = .created a (.counter d) → ∃ x : BitVec 32,
      (x.toNat : Int) = max 0 (min 0xFFFFFFFF d) ∧ installedContent dir done i = .counter a x (crc16 (be32 x)))
    ∧ (∀ base d gen a y crc, i.op = .added base d →
      (chainOf dir i.tag).head? = some ⟨gen, .counter a y crc⟩ → ∃ x : BitVec 32,
      (x.toNat : Int) = max 0 (min 0xFFFFFFFF ((y.toNat : Int) + d))
        ∧ installedContent dir done i = .counter a x (crc16 (be32 x)))
    ∧ (∀ base, i.op = .deleted base → installedContent dir done i = .tombstone)

/-! ### Watches, events and attention -/

/-- WATCH: RANGE for 0x0000 and 0xFFFF, OK with no effect for a tag on the list, LIMIT at 16 tags, otherwise
the tag joins the end; every reply carries the number of tags on the list. While LOADING it is answered
NOT_READY. -/
def Obligations.WatchAddsItsTag : Prop :=
  (∀ (p : Port) (s : State) (tag : Tag), readyWith p (0x30#8 :: be16 tag) s →
    let n := s.notes.get p
    let unchanged := fun (r : Result) =>
      exec (.watch p) s = .next (replied p r 0x30#8 s.g [BitVec.ofNat 8 n.watches.length] s)
    (tag = 0x0000#16 ∨ tag = 0xFFFF#16 → unchanged .range)
    ∧ (tag ≠ 0x0000#16 → tag ≠ 0xFFFF#16 →
      (tag ∈ n.watches → unchanged .ok)
      ∧ (tag ∉ n.watches → 16 ≤ n.watches.length → unchanged .limit)
      ∧ (tag ∉ n.watches → n.watches.length < 16 →
        exec (.watch p) s = .next (replied p .ok 0x30#8 s.g [BitVec.ofNat 8 (n.watches.length + 1)]
          (s.setNote p { n with watches := n.watches ++ [tag] })))))
  ∧ ∀ (p : Port) (s : State) (tag : Tag), s.image.device = .loading → frameHolds p (0x30#8 :: be16 tag) s →
    exec (.watch p) s = .next (replied p .notReady 0x30#8 s.g [] s)

/-- UNWATCH removes its tag, the tags behind closing up; NONE for a tag not on the list, 0x0000 always; 0xFFFF
empties the list. Queued events and flags stay, and the reply carries the number of tags left. -/
def Obligations.UnwatchRemovesItsTag : Prop :=
  ∀ (p : Port) (s : State) (tag : Tag), readyWith p (0x31#8 :: be16 tag) s → (s.notes.get p).Ok →
    let n := s.notes.get p
    let leaves := fun (r : Result) (watches : List Tag) =>
      exec (.unwatch p) s = .next (replied p r 0x31#8 s.g [BitVec.ofNat 8 watches.length]
        (s.setNote p { n with watches := watches }))
    (tag = 0xFFFF#16 → leaves .ok [])
    ∧ (∀ before behind, tag ≠ 0xFFFF#16 → n.watches = before ++ tag :: behind → leaves .ok (before ++ behind))
    ∧ (tag ≠ 0xFFFF#16 → tag ∉ n.watches → leaves .absent n.watches)
    ∧ (tag = 0x0000#16 → leaves .absent n.watches)

/-- EVENT_PEEK copies queue, lost count and flags and changes no notification state; EVENT_ACK removes the n
oldest entries, clears QUEUE with the last of them and changes no other flag and not the lost count.
FLAG_CLEAR clears the named flags but QUEUE, zeroes the lost count when OVERFLOW is named, and answers the
flags after; a set naming an undefined flag is answered RANGE and clears nothing; the queue stays. The codes of event kinds
and details are those of Table 10-2. -/
def Obligations.PeekCopiesAckRemovesFlagClearClears : Prop :=
  ((∀ (p : Port) (s : State), readyWith p [0x32#8] s →
      let n := s.notes.get p
      exec (.eventPeek p) s = .next (replied p .ok 0x32#8 s.g
        ([BitVec.ofNat 8 n.queue.length, BitVec.ofNat 8 n.lost, n.flags.setWidth 8]
          ++ n.queue.flatMap (fun e => e.kind.code :: e.detail.code :: (be16 e.tag ++ be32 e.gen))) s))
    ∧ ∀ (p : Port) (s : State) (count : Byte), readyWith p [0x33#8, count] s → (s.notes.get p).Ok →
      let n := s.notes.get p
      let left := n.queue.drop count.toNat
      let flags := if left = [] then n.flags &&& 0x3E#6 else n.flags
      exec (.eventAck p) s = .next (replied p .ok 0x33#8 s.g [BitVec.ofNat 8 left.length]
        (s.setNote p { n with queue := left, flags := flags, attnLow := flags &&& n.mask != 0#6 })))
  ∧ (∀ (p : Port) (s : State) (named : Byte), readyWith p [0x04#8, named] s → (s.notes.get p).Ok →
      let n := s.notes.get p
      let flags := n.flags &&& ~~~(named.setWidth 6 &&& 0x3E#6)
      (named.toNat < 64 → exec (.flagClear p) s = .next (replied p .ok 0x04#8 s.g [flags.setWidth 8]
        (s.setNote p { n with
          flags := flags
          lost := if named.getLsbD 1 then 0 else n.lost
          attnLow := flags &&& n.mask != 0#6 })))
      ∧ (64 ≤ named.toNat → exec (.flagClear p) s = .next (replied p .range 0x04#8 s.g [n.flags.setWidth 8] s)))
  ∧ [EventKind.changed, .created, .deleted, .commitDone, .txnTimeout, .snapLapsed, .imageDone].map EventKind.code
    = [0x01#8, 0x02#8, 0x03#8, 0x10#8, 0x11#8, 0x12#8, 0x13#8]
  ∧ [EventDetail.zero, .image .saved, .image .cancelled, .image (.failed .eraseTimeout), .image (.failed .programTimeout),
      .image (.failed .verify)].map EventDetail.code = [0x00#8, 0x01#8, 0x02#8, 0x11#8, 0x12#8, 0x13#8]
  ∧ ∀ o : TxnOutcome, (EventDetail.outcome o.name).code = o.name.code

/-- An arrival at a port in order: with an entry of its kind and tag queued it replaces that entry's generation
and detail in place, with room it joins the tail and QUEUE is set, and with 8 entries it is dropped, the
lost count rising to at most 255 and OVERFLOW set. A flag handed beside it is set all the same, the line
follows, and a record event reaches exactly the ports that watch its tag. -/
def Obligations.ArrivalsCoalesceJoinOrDrop : Prop :=
  ∀ (p : Port) (e : Event) (f : FlagSet) (s : State), NotesOk s → (f = flagTxnEnded ∨ f = flagLapsed ∨ f = flagImage) →
    let n := s.notes.get p
    let handed := fun (queue : List Event) (lost : Nat) (flags : FlagSet) =>
      let all := flags ||| f
      deliver p e f s = s.setNote p { n with
        queue := queue, lost := lost, flags := all, attnLow := all &&& n.mask != 0#6 }
    (∀ before x behind, n.queue = before ++ x :: behind → x.kind = e.kind → x.tag = e.tag →
      handed (before ++ e :: behind) n.lost n.flags)
    ∧ ((∀ x ∈ n.queue, ¬ (x.kind = e.kind ∧ x.tag = e.tag)) →
      (n.queue.length < 8 → handed (n.queue ++ [e]) n.lost (n.flags ||| 0x01#6))
      ∧ (n.queue.length = 8 → handed n.queue (min 255 (n.lost + 1)) (n.flags ||| 0x02#6)))
    ∧ ∀ q, (deliverRecordEvent e s).notes.get q
      = if e.tag ∈ (s.notes.get q).watches then (s.notes.get q).arrive e else s.notes.get q

/-! ### The image store -/

/-- CHECKPOINT in the order of its checks: DENIED, BUSY, EXHAUSTED with nothing changed; accepted, slot 4 is
HELD at G, the target is the slot that is not current, the stage ERASING at sector 0 with its first poll,
and the reply names the target and the sequence of the seal. CHECKPOINT_CANCEL: DENIED without privilege,
IDLE with no checkpoint, TOO_LATE in SEALING, and in ERASING or WRITING OK with the checkpoint ended
CANCELLED; what runs in the flash runs on. -/
def Obligations.CheckpointBindsSlotFourAndCancelEndsIt : Prop :=
  (∀ (p : Port) (s : State), readyWith p [0x40#8] s →
      let refused := fun (r : Result) => exec (.checkpoint p) s = .next (replied p r 0x40#8 s.g [] s)
      let accepted := fun (target : ImageSlot) (code : Byte) =>
        exec (.checkpoint p) s = .next (replied p .ok 0x40#8 s.g (code :: be32 (s.image.sequence + 1#32)) { s with
          slot4 := some s.g
          image := { s.image with
            checkpoint := some ⟨.erasing 0, target, 0, 0⟩
            op := .poll .erase (some 400) } })
      (s.priv.getLsbD p.index = false → refused .denied)
      ∧ (s.priv.getLsbD p.index = true → ∀ c, s.image.checkpoint = some c → refused .busy)
      ∧ (s.priv.getLsbD p.index = true → s.image.checkpoint = none →
        (s.image.sequence = 0xFFFFFFFF#32 → refused .exhausted)
        ∧ (s.image.sequence ≠ 0xFFFFFFFF#32 →
          (s.image.current = some .slot0 → accepted .slot1 0x01#8)
          ∧ (s.image.current = some .slot1 ∨ s.image.current = none → accepted .slot0 0x00#8))))
  ∧ (∀ (p : Port) (s : State), readyWith p [0x41#8] s →
      let refused := fun (r : Result) => exec (.checkpointCancel p) s = .next (replied p r 0x41#8 s.g [] s)
      (s.priv.getLsbD p.index = false → refused .denied)
      ∧ (s.priv.getLsbD p.index = true →
        (s.image.checkpoint = none → refused .idle)
        ∧ (∀ c, s.image.checkpoint = some c → c.stage = .sealing → refused .tooLate)
        ∧ (∀ c, s.image.checkpoint = some c →
          ((∃ k, c.stage = .erasing k) ∨ ∃ u position, c.stage = .writing u position) →
          ∃ t, CheckpointEnded .cancelled s t ∧ exec (.checkpointCancel p) s = .next (replied p .ok 0x41#8 s.g [] t))))

/-- STATUS_POLL_READY: an operation left running in the flash has ended (the flash is held in State, log entry
4), and the operation of the poll proceeds: the load's read, the first of whose two header reads is followed by
the poll of the second (log entry 9), the readback, the erase of the cursor's sector with a 400 ms timer, or the
program of the stream unit or of the header with a 10 ms timer. A unit is filled here (log entry 15): the image
totals and the tag position are then those of the records whose entries begin in the units filled so far. The
records saved are those visible at slot 4's generation and PERSISTENT, in ascending tag order. -/
def Obligations.PollReadySendsTheOperation : Prop :=
  (∀ (left : Option (List Byte)) (s : State) (timer : Timer),
    let settled := s.flash.settle left
    let records := savedRecords s.directory (checkpointGen s)
    let goesOn := fun (op : FlashOp) => exec (.statusPollReady left) s
      = .next { s with flash := settled, image := { s.image with op := op } }
    (s.image.op = .poll .loadRead timer → s.image.loader ≠ .header0 → goesOn .loadRead)
    ∧ (s.image.op = .poll .loadRead timer → s.image.loader = .header0 →
      exec (.statusPollReady left) s = .next { s with
        flash := settled
        image := { s.image with loader := .header1, op := .poll .loadRead (some 400) } })
    ∧ (∀ addr data, s.image.op = .poll (.readback addr data) timer → goesOn (.readback addr data))
    ∧ (∀ c k, s.image.op = .poll .erase timer → s.image.checkpoint = some c → c.stage = .erasing k →
      exec (.statusPollReady left) s = .next { s with
        flash := ⟨settled.mem, some (.erase (c.target.base + 4096 * k))⟩
        image := { s.image with op := .erase (c.target.base + 4096 * k) (some 400) } })
    ∧ (∀ c u position, s.image.op = .poll .program timer → s.image.checkpoint = some c →
      c.stage = .writing u position →
      let bytes := ((imageStream s.pool records).drop (256 * u)).take 256
      let data := bytes ++ List.replicate (256 - bytes.length) 0xFF#8
      let addr := c.target.base + 256 + 256 * u
      let placed := placedWithin (256 * (u + 1)) records
      let position' := match placed.getLast? with
        | none => position
        | some x => x.1 + 1#16
      exec (.statusPollReady left) s = .next { s with
        flash := ⟨settled.mem, some (.program addr data)⟩
        image := { s.image with
          checkpoint := some ⟨.writing u position', c.target, placed.length, (placed.map (fun x => x.2.length)).sum⟩
          op := .program addr data (some 10) } })
    ∧ (∀ c, s.image.op = .poll .program timer → s.image.checkpoint = some c → c.stage = .sealing →
      let header := (ImageHeader.mk (s.image.sequence + 1#32) (checkpointGen s) c.records c.bodyBytes).bytes
      let data := header ++ List.replicate (256 - header.length) 0xFF#8
      exec (.statusPollReady left) s = .next { s with
        flash := ⟨settled.mem, some (.program c.target.base data)⟩
        image := { s.image with op := .program c.target.base data (some 10) } }))
  ∧ (∀ (room : Nat) (records : List (Tag × Version)), ∃ n, placedWithin room records = records.take n
      ∧ ∀ k, k < records.length → (k < n ↔ ((records.take k).map (fun x => 8 + x.2.length)).sum < room))
  ∧ (∀ (dir : List DirSlot) (gen : Gen), (dir.map DirSlot.tag).Pairwise (· < ·) →
      ((savedRecords dir gen).map Prod.fst).Pairwise (· < ·)
      ∧ ∀ tag v, (tag, v) ∈ savedRecords dir gen ↔ visible dir tag gen = some v
        ∧ ∃ writers, v.attrs? = some ⟨writers, .persistent⟩)

/-- ERASE_DONE, PROGRAM_DONE and READBACK_DONE: the next sector, or WRITING after sector 15, or SEALING for an
empty stream; the readback's poll; the next unit, SEALING after the stream's last byte, SAVED after the header
with the target current and the sequence one higher; FAILED, VERIFY when a byte differs. The flash is held in
State (log entry 4). -/
def Obligations.FlashEndsAdvanceTheCheckpoint : Prop :=
  ∀ (bytes : Option (List Byte)) (s : State) (c : Checkpoint), s.image.checkpoint = some c →
    let stream := imageStream s.pool (savedRecords s.directory (checkpointGen s))
    let settled := { s with flash := s.flash.settle bytes }
    let moves := fun (row : Instr) (u : State) (stage : Stage) (next : AfterPoll) =>
      exec row s = .next { u with image := { u.image with
        checkpoint := some { c with stage := stage }, op := .poll next (some 400) } }
    (∀ addr timer k, s.image.op = .erase addr timer → c.stage = .erasing k →
      (k < 15 → moves (.eraseDone bytes) settled (.erasing (k + 1)) .erase)
      ∧ (15 ≤ k → stream = [] → moves (.eraseDone bytes) settled .sealing .program)
      ∧ (15 ≤ k → stream ≠ [] → moves (.eraseDone bytes) settled (.writing 0 0x0000#16) .program))
    ∧ (∀ addr data timer, s.image.op = .program addr data timer →
      exec (.programDone bytes) s = .next { settled with
        image := { s.image with op := .poll (.readback addr data) (some 400) } })
    ∧ (∀ addr data, s.image.op = .readback addr data →
      let got := bytes.getD ((List.range data.length).map (fun k => cellRead 0xFF#8 s.flash.mem (addr + k)))
      (got = data → ∀ u position, c.stage = .writing u position →
        (256 * (u + 1) < stream.length → moves (.readbackDone bytes) s (.writing (u + 1) position) .program)
        ∧ (stream.length ≤ 256 * (u + 1) → moves (.readbackDone bytes) s .sealing .program))
      ∧ (got = data → c.stage = .sealing → ∃ t,
        CheckpointEnded .saved { s with image := { s.image with
          current := some c.target, sequence := s.image.sequence + 1#32 } } t
        ∧ exec (.readbackDone bytes) s = .next t)
      ∧ (got ≠ data → ∃ t, CheckpointEnded (.failed .verify) s t ∧ exec (.readbackDone bytes) s = .next t))

/-- The expiries of the flash timers: the first poll's ends the load EMPTY, NO_IMAGE with the store empty, a
checkpoint's poll ends it FAILED with the cause of its stage, an erase's and a program's end it FAILED with theirs;
the flash is left alone. A timer that is not due does not expire (log entries 1 and 5), and a later poll of the load,
which finds the flash ready, does not fail (log entry 9). -/
def Obligations.FlashTimeoutsEndTheirWork : Prop :=
  ∀ s : State,
    (∀ timer, s.image.op = .poll .loadRead timer → timer = some 0 → s.image.loader = .header0 →
      ∃ t, exec .statusPollTimeout s = .next t
      ∧ t.image = { s.image with
          device := .ready, load := .empty .noImage, loader := .idle, current := none, sequence := 0#32, op := .none }
      ∧ (∀ q, t.notes.get q = (s.notes.get q).raise flagLoaded)
      ∧ t = { s with image := t.image, notes := t.notes }
      ∧ (ImageOk s → t.directory = []))
    ∧ (∀ timer, s.image.op = .poll .loadRead timer → s.image.loader ≠ .header0 → exec .statusPollTimeout s = .next s)
    ∧ (∀ next timer c, s.image.op = .poll next timer → timer = some 0 → next ≠ .loadRead →
      s.image.checkpoint = some c →
      ((∃ k, c.stage = .erasing k) →
        ∃ t, CheckpointEnded (.failed .eraseTimeout) s t ∧ exec .statusPollTimeout s = .next t)
      ∧ ((c.stage = .sealing ∨ ∃ u position, c.stage = .writing u position) →
        ∃ t, CheckpointEnded (.failed .programTimeout) s t ∧ exec .statusPollTimeout s = .next t))
    ∧ (∀ next timer, s.image.op = .poll next timer → timer ≠ some 0 → exec .statusPollTimeout s = .next s)
    ∧ (∀ addr timer, s.image.op = .erase addr timer →
      (timer = some 0 → ∃ t, CheckpointEnded (.failed .eraseTimeout) s t ∧ exec .eraseTimerExpiry s = .next t)
      ∧ (timer ≠ some 0 → exec .eraseTimerExpiry s = .next s))
    ∧ (∀ addr data timer, s.image.op = .program addr data timer →
      (timer = some 0 → ∃ t, CheckpointEnded (.failed .programTimeout) s t ∧ exec .programTimerExpiry s = .next t)
      ∧ (timer ≠ some 0 → exec .programTimerExpiry s = .next s))

/-- What an operation leaves in the flash when it ends: an erase 0xFF in its sector, a program the bits of the
old bytes that the new ones keep, no other byte changed; where the command gives the bytes left, those (log
entry 4). What each operation puts on the link, as the codes of Table 7-2: read status for a poll, write enable
before erase and program, 24-bit addresses, no read of an entry whose head would run past its slot; with no
operation select is released, as in device reset (whole operations, log entry 11). That slot 0's header is read
before the poll of slot 1's, and that one read takes one entry, are the model's choices (log entry 9). -/
def Obligations.FlashOperationsLand : Prop :=
  (∀ (f : Flash), Memory.wf erasedByte f.mem = true →
    let read := fun (g : Flash) (a : Nat) => cellRead 0xFF#8 g.mem a
    (∀ addr, f.running = some (.erase addr) → ∀ a,
      read (f.settle none) a = if addr ≤ a ∧ a < addr + 4096 then 0xFF#8 else read f a)
    ∧ (∀ addr data, f.running = some (.program addr data) → ∀ a,
      read (f.settle none) a
        = if addr ≤ a ∧ a < addr + data.length then read f a &&& data.getD (a - addr) 0xFF#8 else read f a)
    ∧ (∀ addr left, f.running = some (.erase addr) → left.length = 4096 → ∀ a,
      read (f.settle (some left)) a
        = if addr ≤ a ∧ a < addr + 4096 then left.getD (a - addr) 0xFF#8 else read f a)
    ∧ (∀ addr data left, f.running = some (.program addr data) → left.length = 256 → ∀ a,
      read (f.settle (some left)) a
        = if addr ≤ a ∧ a < addr + 256 then left.getD (a - addr) 0xFF#8 else read f a)
    ∧ (∀ left, (f.settle left).running = none) ∧ (f.running = none → ∀ left, f.settle left = f))
  ∧ ∀ s : State,
    let address := fun (a : Nat) => [BitVec.ofNat 8 (a / 65536), BitVec.ofNat 8 (a / 256), BitVec.ofNat 8 a]
    (s.image.op = .none → linkSends s = [] ∧ linkReleased s = true)
    ∧ (s.image.op ≠ .none → ImageOk s → linkReleased s = false)
    ∧ (∀ next timer, s.image.op = .poll next timer → s.image.loader ≠ .header1 ∨ next ≠ .loadRead →
      linkSends s = [[0x05#8]])
    ∧ (∀ timer, s.image.op = .poll .loadRead timer → s.image.loader = .header1 →
      linkSends s = [0x03#8 :: address 0x000000, [0x05#8]])
    ∧ (∀ addr timer, s.image.op = .erase addr timer → linkSends s = [[0x06#8], 0x20#8 :: address addr, [0x05#8]])
    ∧ (∀ addr data timer, s.image.op = .program addr data timer →
      linkSends s = [[0x06#8], 0x02#8 :: (address addr ++ data), [0x05#8]])
    ∧ (∀ addr data, s.image.op = .readback addr data → linkSends s = [0x03#8 :: address addr])
    ∧ (s.image.op = .loadRead → s.image.loader = .header1 → linkSends s = [0x03#8 :: address 0x010000])
    ∧ (∀ c, s.image.op = .loadRead → s.image.loader = .checking c ∨ s.image.loader = .installing c →
      linkSends s = [0x03#8 :: address (c.slot.base + c.offset)]
        ∧ (ImageOk s → c.offset + 8 ≤ 65536))
    ∧ linkReleased State.reset = true

/-- What the part writes in flash is what it reads back: the header of an image with counts in their fields, and
the entry of a live version whose crc is that of its body. The bytes of both are those of Tables 10-11 and 10-12,
most significant byte first. -/
def Obligations.ImageLayoutsReadBack : Prop :=
  (∀ h : ImageHeader, h.records < 65536 → h.bodyBytes < 4294967296 → parseHeader (padUnit h.bytes) = some h)
  ∧ (∀ (f : Flash) (i : ImageSlot) (offset : Nat) (tag : Tag) (v : Version) (pool : Pool) (kind : Kind) (attrs : Attrs),
    tag ≠ 0x0000#16 → tag ≠ 0xFFFF#16 → v.kind? = some kind → v.attrs? = some attrs → v.length ≤ 2048 →
    crc16 (v.body pool) = v.crc → offset + 8 + v.length ≤ 65536 →
    f.bytesAt (i.base + offset) (8 + v.length) = imageEntry pool (tag, v) →
    readEntry f i offset = some ⟨tag, kind, attrs, v.length, v.crc, v.body pool⟩)
  ∧ (∀ h : ImageHeader,
      let fields := [0x45#8, 0x4A#8, 0x43#8, 0x52#8, 0x01#8] ++ be32 h.sequence ++ be32 h.gen
        ++ be16 (BitVec.ofNat 16 h.records) ++ be32 (BitVec.ofNat 32 h.bodyBytes)
      h.bytes = fields ++ be16 (crc16 fields))
  ∧ ∀ (pool : Pool) (tag : Tag) (gen : Gen) (writers : BitVec 4) (persist : Persist),
    let persistCode := if persist = .persistent then 0x01#8 else 0x02#8
    (∀ n pages crc, imageEntry pool (tag, ⟨gen, .blob ⟨writers, persist⟩ n pages crc⟩)
      = be16 tag ++ [0x10#8 ||| persistCode, writers.setWidth 8] ++ be16 (BitVec.ofNat 16 n) ++ be16 crc
        ++ pool.body pages n)
    ∧ ∀ x crc, imageEntry pool (tag, ⟨gen, .counter ⟨writers, persist⟩ x crc⟩)
      = be16 tag ++ [0x20#8 ||| persistCode, writers.setWidth 8, 0x00#8, 0x04#8] ++ be16 crc ++ be32 x

/-- LOAD_HEADERS_READ: with no valid slot the load ends EMPTY, NO_IMAGE; otherwise the check pass begins at the
first entry of the valid slot of higher sequence, slot 0 first when both are equal, the other valid slot waiting.
A slot whose record count is 0 loads at once when its body bytes are 0 and is rejected otherwise.
LOAD_ENTRY_CHECKED: an entry that passes with its tag above the last moves the cursor, and the last one accepts
the slot when the lengths sum to the header's; a failed entry, order or sum rejects the slot, and with no slot
left to try the load ends EMPTY, REJECTED. Nothing is installed. Each read begins with its own poll (log entry 9)
but for an entry whose head would run past the slot, which is not read. A header is invalid exactly when its
magic, format or CRC is wrong, and an entry is refused exactly on the grounds of Table 7-4. -/
def Obligations.LoadChoosesAndChecksASlot : Prop :=
  (∀ s : State, s.image.loader = .header1 → s.image.op = .loadRead →
      let header := fun (i : ImageSlot) =>
        parseHeader ((List.range 256).map (fun k => cellRead 0xFF#8 s.flash.mem (i.base + k)))
      let tries := fun (slots : List (ImageSlot × ImageHeader)) =>
        ∃ t, exec .loadHeadersRead s = .next t ∧ SlotsTried s t slots
      (header .slot0 = none → header .slot1 = none →
        ∃ t, exec .loadHeadersRead s = .next t ∧ LoadEnded (.empty .noImage) none 0#32 s t)
      ∧ (∀ h, header .slot0 = some h → header .slot1 = none → tries [(.slot0, h)])
      ∧ (∀ h, header .slot0 = none → header .slot1 = some h → tries [(.slot1, h)])
      ∧ (∀ h0 h1, header .slot0 = some h0 → header .slot1 = some h1 →
        (h1.sequence ≤ h0.sequence → tries [(.slot0, h0), (.slot1, h1)])
        ∧ (h0.sequence < h1.sequence → tries [(.slot1, h1), (.slot0, h0)])))
  ∧ (∀ (s : State) (c : LoadCursor), s.image.loader = .checking c → s.image.op = .loadRead ∨ s.image.op = .none →
      let entry := readEntry s.flash c.slot c.offset
      let rejects := ∃ t, exec .loadEntryChecked s = .next t ∧ SlotsTried s t c.others
      (entry = none → rejects)
      ∧ ∀ e, entry = some e →
        ((∃ last, c.lastTag = some last ∧ e.tag ≤ last) → rejects)
        ∧ ((∀ last, c.lastTag = some last → last < e.tag) →
          (c.index + 1 < c.header.records → exec .loadEntryChecked s = .next { s with
            image := { s.image with
              loader := .checking
                ⟨c.slot, c.header, c.others, c.index + 1, c.offset + (8 + e.length), some e.tag, c.sum + e.length⟩
              op := if 65536 < c.offset + (8 + e.length) + 8 then .none else .poll .loadRead (some 400) } })
          ∧ (c.header.records ≤ c.index + 1 → c.sum + e.length = c.header.bodyBytes →
            exec .loadEntryChecked s = .next { s with
              image := { s.image with
                loader := .installing ⟨c.slot, c.header, c.others, 0, 256, none, 0⟩
                op := .poll .loadRead (some 400) } })
          ∧ (c.header.records ≤ c.index + 1 → c.sum + e.length ≠ c.header.bodyBytes → rejects)))
  ∧ (∀ bs : List Byte, bs.length = 256 →
      (parseHeader bs = none ↔ ¬ (bs.take 4 = [0x45#8, 0x4A#8, 0x43#8, 0x52#8] ∧ bs[4]? = some 0x01#8
        ∧ (bs.drop 19).take 2 = be16 (crc16 (bs.take 19)))))
  ∧ ∀ (f : Flash) (i : ImageSlot) (offset : Nat),
    let b := fun (k : Nat) => cellRead 0xFF#8 f.mem (i.base + offset + k)
    let length := 256 * (b 4).toNat + (b 5).toNat
    let body := (List.range length).map (fun k => b (8 + k))
    readEntry f i offset = none ↔
      65536 < offset + 8 ∨ 65536 < offset + 8 + length
      ∨ (b 0 = 0x00#8 ∧ b 1 = 0x00#8) ∨ (b 0 = 0xFF#8 ∧ b 1 = 0xFF#8)
      ∨ (b 2 >>> 4 ≠ 0x01#8 ∧ b 2 >>> 4 ≠ 0x02#8) ∨ (b 2 &&& 0x0F#8 ≠ 0x01#8 ∧ b 2 &&& 0x0F#8 ≠ 0x02#8)
      ∨ b 3 &&& 0xF0#8 ≠ 0x00#8
      ∨ (b 2 >>> 4 = 0x02#8 ∧ length ≠ 4) ∨ (b 2 >>> 4 = 0x01#8 ∧ 2048 < length)
      ∨ be16 (crc16 body) ≠ [b 6, b 7]

/-- LOAD_ENTRY_INSTALLED: with a free slot, a free entry and, for a BLOB, its pages, the entry becomes the only
version of a new chain at generation 1, its pages from the head of the free list with count 1, holding the body and
0x00 past its end; the other pages, their counts and every staged-owned count stay. Otherwise nothing is taken and
the load ends PARTIAL. The last entry ends the load LOADED. The pass goes on with the poll of the next read, or with no
operation where the next head would run past the slot (log entry 9). A tag that already has a chain is left out (log
entry 13). -/
def Obligations.InstallPassInstallsOrStops : Prop :=
  ∀ (s : State) (c : LoadCursor) (e : LoadEntry), s.image.loader = .installing c → s.image.op = .loadRead →
    readEntry s.flash c.slot c.offset = some e → chainOf s.directory e.tag = [] →
    let room := 0 < freeSlots s ∧ 0 < freeEntries s
    let ends := fun (t : State) (r : LoadResult) =>
      t.image = { s.image with
        device := .ready, load := r, loader := .idle, current := some c.slot, sequence := c.header.sequence, op := .none }
      ∧ ∀ q, t.notes.get q = (s.notes.get q).raise flagLoaded
    let stops := ∃ t, exec .loadEntryInstalled s = .next t ∧ ends t .stoppedPartial
      ∧ t = { s with image := t.image, notes := t.notes }
    let installs := fun (content : Content) (pool : Pool) => ∃ t, exec .loadEntryInstalled s = .next t
      ∧ chainOf t.directory e.tag = [⟨1#32, content⟩]
      ∧ (∀ tag, tag ≠ e.tag → chainOf t.directory tag = chainOf s.directory tag)
      ∧ t.pool = pool
      ∧ (c.index + 1 < c.header.records → t.notes = s.notes ∧ t.image = { s.image with
          loader := .installing
            ⟨c.slot, c.header, c.others, c.index + 1, c.offset + (8 + e.length), some e.tag, c.sum + e.length⟩
          op := if 65536 < c.offset + (8 + e.length) + 8 then .none else .poll .loadRead (some 400) })
      ∧ (c.header.records ≤ c.index + 1 → ends t .loaded)
      ∧ t = { s with directory := t.directory, pool := t.pool, image := t.image, notes := t.notes }
    (¬ room → stops)
    ∧ (room → e.kind = .counter →
      installs (.counter e.attrs (BitVec.ofNat 32 (fromBe e.body)) e.crc) s.pool)
    ∧ (room → e.kind = .blob → s.pool.free.length < (e.length + 31) / 32 → stops)
    ∧ (room → e.kind = .blob → (e.length + 31) / 32 ≤ s.pool.free.length →
      let taken := s.pool.free.take ((e.length + 31) / 32)
      ∃ pool, pool.free = s.pool.free.drop ((e.length + 31) / 32)
        ∧ pool.stagedOwned = s.pool.stagedOwned
        ∧ (cellsWf 0 s.pool.refs = true → ∀ n, pool.ref n = if n ∈ taken then 1 else s.pool.ref n)
        ∧ (Memory.wf 0x00#8 s.pool.bytes = true → s.pool.free.Nodup →
          pool.body taken e.length = e.body ∧ tailClear pool e.length taken
            ∧ ∀ n, n ∉ taken → pool.page n = s.pool.page n)
        ∧ installs (.blob e.attrs e.length taken e.crc) pool)
end

