-- ==== Sys2Proof/Laws/State.lean ====
section
/-! SUPPORT. One lemma for each field of State under each setter, and the laws of values per port, so that no
proof unfolds a record update. -/

namespace Sys2Proof.Machine

/-! ### Values per port -/

@[simp] theorem PortMap.get_set_self {α : Type} (m : PortMap α) (p : Port) (x : α) : (m.set p x).get p = x := by
  cases p <;> rfl

@[simp] theorem PortMap.get_set_of_ne {α : Type} (m : PortMap α) {p q : Port} (x : α) (h : q ≠ p) :
    (m.set p x).get q = m.get q := by
  cases p <;> cases q <;> first | rfl | exact absurd rfl h

@[simp] theorem PortMap.set_set {α : Type} (m : PortMap α) (p : Port) (x y : α) : (m.set p x).set p y = m.set p y := by
  cases p <;> rfl

@[simp] theorem PortMap.set_get {α : Type} (m : PortMap α) (p : Port) : m.set p (m.get p) = m := by
  cases p <;> rfl

theorem PortMap.set_comm {α : Type} (m : PortMap α) {p q : Port} (x y : α) (h : q ≠ p) :
    (m.set p x).set q y = (m.set q y).set p x := by
  cases p <;> cases q <;> first | rfl | exact absurd rfl h

@[simp] theorem PortMap.get_same {α : Type} (x : α) (p : Port) : (PortMap.same x).get p = x := by
  cases p <;> rfl

@[simp] theorem PortMap.get_mapPorts {α β : Type} (f : Port → α → β) (m : PortMap α) (p : Port) :
    (m.mapPorts f).get p = f p (m.get p) := by
  cases p <;> rfl

theorem PortMap.ext_get {α : Type} {m m' : PortMap α} (h : ∀ p, m.get p = m'.get p) : m = m' :=
  PortMap.ext (h .p0) (h .p1) (h .p2) (h .p3)

theorem Port.mem_all (p : Port) : p ∈ Port.all := by
  cases p <;> decide


/-! ### setIface -/

@[simp] theorem State.setIface_inReset (s : State) (p : Port) (x : Iface) : (s.setIface p x).inReset = s.inReset := rfl
@[simp] theorem State.setIface_adr (s : State) (p : Port) (x : Iface) : (s.setIface p x).adr = s.adr := rfl
@[simp] theorem State.setIface_priv (s : State) (p : Port) (x : Iface) : (s.setIface p x).priv = s.priv := rfl
@[simp] theorem State.setIface_ifaces (s : State) (p : Port) (x : Iface) : (s.setIface p x).ifaces = s.ifaces.set p x := rfl
@[simp] theorem State.setIface_snaps (s : State) (p : Port) (x : Iface) : (s.setIface p x).snaps = s.snaps := rfl
@[simp] theorem State.setIface_slot4 (s : State) (p : Port) (x : Iface) : (s.setIface p x).slot4 = s.slot4 := rfl
@[simp] theorem State.setIface_g (s : State) (p : Port) (x : Iface) : (s.setIface p x).g = s.g := rfl
@[simp] theorem State.setIface_directory (s : State) (p : Port) (x : Iface) : (s.setIface p x).directory = s.directory := rfl
@[simp] theorem State.setIface_pool (s : State) (p : Port) (x : Iface) : (s.setIface p x).pool = s.pool := rfl
@[simp] theorem State.setIface_txns (s : State) (p : Port) (x : Iface) : (s.setIface p x).txns = s.txns := rfl
@[simp] theorem State.setIface_commitQueue (s : State) (p : Port) (x : Iface) : (s.setIface p x).commitQueue = s.commitQueue := rfl
@[simp] theorem State.setIface_engine (s : State) (p : Port) (x : Iface) : (s.setIface p x).engine = s.engine := rfl
@[simp] theorem State.setIface_notes (s : State) (p : Port) (x : Iface) : (s.setIface p x).notes = s.notes := rfl
@[simp] theorem State.setIface_image (s : State) (p : Port) (x : Iface) : (s.setIface p x).image = s.image := rfl
@[simp] theorem State.setIface_flash (s : State) (p : Port) (x : Iface) : (s.setIface p x).flash = s.flash := rfl
@[simp] theorem State.setIface_pending (s : State) (p : Port) (x : Iface) : (s.setIface p x).pending = s.pending := rfl

@[simp] theorem State.setIface_setIface (s : State) (p : Port) (x y : Iface) : (s.setIface p x).setIface p y = s.setIface p y := by
  simp only [State.setIface, PortMap.set_set]

@[simp] theorem State.setIface_get (s : State) (p : Port) : s.setIface p (s.ifaces.get p) = s := by
  simp only [State.setIface, PortMap.set_get]

/-! ### setSnap -/

@[simp] theorem State.setSnap_inReset (s : State) (p : Port) (x : Snap) : (s.setSnap p x).inReset = s.inReset := rfl
@[simp] theorem State.setSnap_adr (s : State) (p : Port) (x : Snap) : (s.setSnap p x).adr = s.adr := rfl
@[simp] theorem State.setSnap_priv (s : State) (p : Port) (x : Snap) : (s.setSnap p x).priv = s.priv := rfl
@[simp] theorem State.setSnap_ifaces (s : State) (p : Port) (x : Snap) : (s.setSnap p x).ifaces = s.ifaces := rfl
@[simp] theorem State.setSnap_snaps (s : State) (p : Port) (x : Snap) : (s.setSnap p x).snaps = s.snaps.set p x := rfl
@[simp] theorem State.setSnap_slot4 (s : State) (p : Port) (x : Snap) : (s.setSnap p x).slot4 = s.slot4 := rfl
@[simp] theorem State.setSnap_g (s : State) (p : Port) (x : Snap) : (s.setSnap p x).g = s.g := rfl
@[simp] theorem State.setSnap_directory (s : State) (p : Port) (x : Snap) : (s.setSnap p x).directory = s.directory := rfl
@[simp] theorem State.setSnap_pool (s : State) (p : Port) (x : Snap) : (s.setSnap p x).pool = s.pool := rfl
@[simp] theorem State.setSnap_txns (s : State) (p : Port) (x : Snap) : (s.setSnap p x).txns = s.txns := rfl
@[simp] theorem State.setSnap_commitQueue (s : State) (p : Port) (x : Snap) : (s.setSnap p x).commitQueue = s.commitQueue := rfl
@[simp] theorem State.setSnap_engine (s : State) (p : Port) (x : Snap) : (s.setSnap p x).engine = s.engine := rfl
@[simp] theorem State.setSnap_notes (s : State) (p : Port) (x : Snap) : (s.setSnap p x).notes = s.notes := rfl
@[simp] theorem State.setSnap_image (s : State) (p : Port) (x : Snap) : (s.setSnap p x).image = s.image := rfl
@[simp] theorem State.setSnap_flash (s : State) (p : Port) (x : Snap) : (s.setSnap p x).flash = s.flash := rfl
@[simp] theorem State.setSnap_pending (s : State) (p : Port) (x : Snap) : (s.setSnap p x).pending = s.pending := rfl

@[simp] theorem State.setSnap_setSnap (s : State) (p : Port) (x y : Snap) : (s.setSnap p x).setSnap p y = s.setSnap p y := by
  simp only [State.setSnap, PortMap.set_set]

@[simp] theorem State.setSnap_get (s : State) (p : Port) : s.setSnap p (s.snaps.get p) = s := by
  simp only [State.setSnap, PortMap.set_get]

/-! ### setTxn -/

@[simp] theorem State.setTxn_inReset (s : State) (p : Port) (x : Context) : (s.setTxn p x).inReset = s.inReset := rfl
@[simp] theorem State.setTxn_adr (s : State) (p : Port) (x : Context) : (s.setTxn p x).adr = s.adr := rfl
@[simp] theorem State.setTxn_priv (s : State) (p : Port) (x : Context) : (s.setTxn p x).priv = s.priv := rfl
@[simp] theorem State.setTxn_ifaces (s : State) (p : Port) (x : Context) : (s.setTxn p x).ifaces = s.ifaces := rfl
@[simp] theorem State.setTxn_snaps (s : State) (p : Port) (x : Context) : (s.setTxn p x).snaps = s.snaps := rfl
@[simp] theorem State.setTxn_slot4 (s : State) (p : Port) (x : Context) : (s.setTxn p x).slot4 = s.slot4 := rfl
@[simp] theorem State.setTxn_g (s : State) (p : Port) (x : Context) : (s.setTxn p x).g = s.g := rfl
@[simp] theorem State.setTxn_directory (s : State) (p : Port) (x : Context) : (s.setTxn p x).directory = s.directory := rfl
@[simp] theorem State.setTxn_pool (s : State) (p : Port) (x : Context) : (s.setTxn p x).pool = s.pool := rfl
@[simp] theorem State.setTxn_txns (s : State) (p : Port) (x : Context) : (s.setTxn p x).txns = s.txns.set p x := rfl
@[simp] theorem State.setTxn_commitQueue (s : State) (p : Port) (x : Context) : (s.setTxn p x).commitQueue = s.commitQueue := rfl
@[simp] theorem State.setTxn_engine (s : State) (p : Port) (x : Context) : (s.setTxn p x).engine = s.engine := rfl
@[simp] theorem State.setTxn_notes (s : State) (p : Port) (x : Context) : (s.setTxn p x).notes = s.notes := rfl
@[simp] theorem State.setTxn_image (s : State) (p : Port) (x : Context) : (s.setTxn p x).image = s.image := rfl
@[simp] theorem State.setTxn_flash (s : State) (p : Port) (x : Context) : (s.setTxn p x).flash = s.flash := rfl
@[simp] theorem State.setTxn_pending (s : State) (p : Port) (x : Context) : (s.setTxn p x).pending = s.pending := rfl

@[simp] theorem State.setTxn_setTxn (s : State) (p : Port) (x y : Context) : (s.setTxn p x).setTxn p y = s.setTxn p y := by
  simp only [State.setTxn, PortMap.set_set]

@[simp] theorem State.setTxn_get (s : State) (p : Port) : s.setTxn p (s.txns.get p) = s := by
  simp only [State.setTxn, PortMap.set_get]

/-! ### setNote -/

@[simp] theorem State.setNote_inReset (s : State) (p : Port) (x : Notify) : (s.setNote p x).inReset = s.inReset := rfl
@[simp] theorem State.setNote_adr (s : State) (p : Port) (x : Notify) : (s.setNote p x).adr = s.adr := rfl
@[simp] theorem State.setNote_priv (s : State) (p : Port) (x : Notify) : (s.setNote p x).priv = s.priv := rfl
@[simp] theorem State.setNote_ifaces (s : State) (p : Port) (x : Notify) : (s.setNote p x).ifaces = s.ifaces := rfl
@[simp] theorem State.setNote_snaps (s : State) (p : Port) (x : Notify) : (s.setNote p x).snaps = s.snaps := rfl
@[simp] theorem State.setNote_slot4 (s : State) (p : Port) (x : Notify) : (s.setNote p x).slot4 = s.slot4 := rfl
@[simp] theorem State.setNote_g (s : State) (p : Port) (x : Notify) : (s.setNote p x).g = s.g := rfl
@[simp] theorem State.setNote_directory (s : State) (p : Port) (x : Notify) : (s.setNote p x).directory = s.directory := rfl
@[simp] theorem State.setNote_pool (s : State) (p : Port) (x : Notify) : (s.setNote p x).pool = s.pool := rfl
@[simp] theorem State.setNote_txns (s : State) (p : Port) (x : Notify) : (s.setNote p x).txns = s.txns := rfl
@[simp] theorem State.setNote_commitQueue (s : State) (p : Port) (x : Notify) : (s.setNote p x).commitQueue = s.commitQueue := rfl
@[simp] theorem State.setNote_engine (s : State) (p : Port) (x : Notify) : (s.setNote p x).engine = s.engine := rfl
@[simp] theorem State.setNote_notes (s : State) (p : Port) (x : Notify) : (s.setNote p x).notes = s.notes.set p x := rfl
@[simp] theorem State.setNote_image (s : State) (p : Port) (x : Notify) : (s.setNote p x).image = s.image := rfl
@[simp] theorem State.setNote_flash (s : State) (p : Port) (x : Notify) : (s.setNote p x).flash = s.flash := rfl
@[simp] theorem State.setNote_pending (s : State) (p : Port) (x : Notify) : (s.setNote p x).pending = s.pending := rfl

@[simp] theorem State.setNote_setNote (s : State) (p : Port) (x y : Notify) : (s.setNote p x).setNote p y = s.setNote p y := by
  simp only [State.setNote, PortMap.set_set]

@[simp] theorem State.setNote_get (s : State) (p : Port) : s.setNote p (s.notes.get p) = s := by
  simp only [State.setNote, PortMap.set_get]

/-! ### Setters of different parts change places -/

theorem State.setSnap_setIface (s : State) (p q : Port) (x : Iface) (y : Snap) :
    (s.setIface p x).setSnap q y = (s.setSnap q y).setIface p x := rfl

theorem State.setTxn_setIface (s : State) (p q : Port) (x : Iface) (y : Context) :
    (s.setIface p x).setTxn q y = (s.setTxn q y).setIface p x := rfl

theorem State.setNote_setIface (s : State) (p q : Port) (x : Iface) (y : Notify) :
    (s.setIface p x).setNote q y = (s.setNote q y).setIface p x := rfl

theorem State.setTxn_setSnap (s : State) (p q : Port) (x : Snap) (y : Context) :
    (s.setSnap p x).setTxn q y = (s.setTxn q y).setSnap p x := rfl

theorem State.setNote_setSnap (s : State) (p q : Port) (x : Snap) (y : Notify) :
    (s.setSnap p x).setNote q y = (s.setNote q y).setSnap p x := rfl

theorem State.setNote_setTxn (s : State) (p q : Port) (x : Context) (y : Notify) :
    (s.setTxn p x).setNote q y = (s.setNote q y).setTxn p x := rfl

end Sys2Proof.Machine
end

