-- ==== Sys2Proof/Laws/Frames.lean ====
section
/-! SUPPORT. What the end of a write frame can do, said once: which of the judgements of Table 8-2 applies, and
what each leaves. -/

namespace Sys2Proof.Machine

/-! ### Codes -/

theorem requestOfCode_requestCode (r : Request) : requestOfCode (requestCode r) = some r := by
  cases r <;> decide

theorem requestCode_injective {r r' : Request} (h : requestCode r = requestCode r') : r = r' := by
  have h' := congrArg requestOfCode h
  simpa only [requestOfCode_requestCode, Option.some.injEq] using h'

theorem mem_allRequests (r : Request) : r ∈ allRequests := by
  cases r <;> decide

theorem requestOfCode_eq_none_iff (c : Byte) : requestOfCode c = none ↔ ∀ r, requestCode r ≠ c := by
  simp only [requestOfCode, List.find?_eq_none, beq_iff_eq]
  exact ⟨fun h r => h r (mem_allRequests r), fun h r _ => h r⟩

/-! ### The end of a frame on its port -/

/-- The port interface that a judged write frame leaves before its reply is written. -/
def judgedIface (p : Port) (s : State) : Iface :=
  { s.ifaces.get p with frame := .idle, stall := none, bus := .released, stream := .closed }

theorem closeFrame_eq (p : Port) (s : State) : closeFrame p s = frameOver p s := rfl

theorem endStream_closeFrame (p : Port) (s : State) : endStream p (closeFrame p s) = s.setIface p (judgedIface p s) := by
  simp only [endStream, closeFrame, State.setIface_setIface, State.setIface_ifaces, PortMap.get_set_self, judgedIface]

theorem endRequest_of_frame {r : Request} {p : Port} {args : List Byte} {s : State}
    (h : frameHolds p (requestCode r :: args) s) (taking : Taking) :
    endRequest r taking p s = endWriteFrame r taking p (requestCode r :: args) s := by
  obtain ⟨limit, h⟩ := h
  simp only [endRequest, h, if_true]

/-- A request row whose frame is not open does not happen. -/
theorem endRequest_of_no_frame {r : Request} {p : Port} {s : State}
    (h : ∀ args, ¬ frameHolds p (requestCode r :: args) s) (taking : Taking) : endRequest r taking p s = s := by
  unfold endRequest
  split
  · rename_i limit c args hf
    split
    · rename_i hc
      exact absurd ⟨limit, hc ▸ hf⟩ (h args)
    · rfl
  · rfl
  · rfl
  · rfl

/-- A judged frame leaves the reply of its judgement over what the judgement leaves. -/
theorem endWriteFrame_of_judge {r : Request} {taking : Taking} {p : Port} {buffer : List Byte} {s t : State} {a : Answer}
    (h : judge r taking p buffer (s.setIface p (judgedIface p s)) = (t, a)) :
    endWriteFrame r taking p buffer s
      = t.setIface p { t.ifaces.get p with reply := ⟨a.result, requestCode r, s.g, a.payload⟩ } := by
  simp only [endWriteFrame, endStream_closeFrame, h, writeReply]

theorem replied_eq (p : Port) (x : Result) (code : Byte) (gen : Gen) (payload : List Byte) (s : State) :
    replied p x code gen payload s
      = s.setIface p { judgedIface p s with reply := ⟨x, code, gen, payload⟩ } := rfl

/-- A request row whose frame is open, complete and not refused for LOADING: the block that owns the request
takes it with its arguments, on the state whose frame is over. -/
theorem endRequest_taken {r : Request} {taking : Taking} {p : Port} {args : List Byte} {s t : State} {a : Answer}
    (h : frameHolds p (requestCode r :: args) s) (hl : declaredLength (requestCode r :: args) ≤ args.length + 1)
    (hr : s.image.device = .ready ∨ r = .deviceStatus)
    (ht : taking p args (s.setIface p (judgedIface p s)) = (t, a)) :
    endRequest r taking p s
      = t.setIface p { t.ifaces.get p with reply := ⟨a.result, requestCode r, s.g, a.payload⟩ } := by
  rw [endRequest_of_frame h]
  apply endWriteFrame_of_judge
  have h1 : ¬ (requestCode r :: args).length < declaredLength (requestCode r :: args) := by
    simpa using hl
  have h2 : (loading (s.setIface p (judgedIface p s)) && r != .deviceStatus) = false := by
    rcases hr with hr | hr
    · simp [loading, hr]
    · simp [hr]
  simp only [judge, h1, if_false, h2, List.tail_cons, ht]
  simp

/-- A taken request that leaves its own port's interface alone leaves `replied`. -/
theorem endRequest_taken_replied {r : Request} {taking : Taking} {p : Port} {args : List Byte} {s t : State} {a : Answer}
    (h : frameHolds p (requestCode r :: args) s) (hl : declaredLength (requestCode r :: args) ≤ args.length + 1)
    (hr : s.image.device = .ready ∨ r = .deviceStatus)
    (ht : taking p args (s.setIface p (judgedIface p s)) = (t.setIface p (judgedIface p t), a)) :
    endRequest r taking p s = replied p a.result (requestCode r) s.g a.payload t := by
  rw [endRequest_taken h hl hr ht, replied_eq]
  simp only [State.setIface_setIface, State.setIface_ifaces, PortMap.get_set_self]

/-- A request row whose frame ended short. -/
theorem endRequest_malformed {r : Request} {p : Port} {args : List Byte} {s : State}
    (h : frameHolds p (requestCode r :: args) s) (hl : args.length + 1 < declaredLength (requestCode r :: args))
    (taking : Taking) : endRequest r taking p s = replied p .malformed (requestCode r) s.g [] s := by
  rw [endRequest_of_frame h, replied_eq]
  have h1 : (requestCode r :: args).length < declaredLength (requestCode r :: args) := by simpa using hl
  rw [endWriteFrame_of_judge (t := s.setIface p (judgedIface p s)) (a := Answer.bare .malformed)
    (by simp only [judge, h1, if_true])]
  simp [Answer.bare]

/-- A complete request other than DEVICE_STATUS on a LOADING device. -/
theorem endRequest_notReady {r : Request} {p : Port} {args : List Byte} {s : State}
    (h : frameHolds p (requestCode r :: args) s) (hl : declaredLength (requestCode r :: args) ≤ args.length + 1)
    (hd : s.image.device = .loading) (hr : r ≠ .deviceStatus) (taking : Taking) :
    endRequest r taking p s = replied p .notReady (requestCode r) s.g [] s := by
  rw [endRequest_of_frame h, replied_eq]
  have h1 : ¬ (requestCode r :: args).length < declaredLength (requestCode r :: args) := by simpa using hl
  have h2 : (loading (s.setIface p (judgedIface p s)) && r != .deviceStatus) = true := by
    simp [loading, hd, hr]
  rw [endWriteFrame_of_judge (t := s.setIface p (judgedIface p s)) (a := Answer.bare .notReady)
    (by simp only [judge, h1, if_false, h2, if_true])]
  simp [Answer.bare]

theorem endUnknown_eq (p : Port) (c : Byte) (s : State) : endUnknown p c s = replied p .unknown c s.g [] s := by
  simp only [endUnknown, endStream_closeFrame, writeReply, replied_eq, State.setIface_setIface, State.setIface_ifaces,
    PortMap.get_set_self, Answer.bare]

/-! ### Every request row of the opcode table is the end of a frame -/

/-- The meaning of a request's row. -/
theorem exec_requestRow (r : Request) (p : Port) (s : State) :
    exec (requestRow r p) s = .next (endRequest r (takingOf r) p s) := by
  cases r <;> rfl

end Sys2Proof.Machine
end

