-- ==== Sys2Proof/Laws/Blocks.lean ====
section
/-! SUPPORT. What the shared operations of the blocks can do, said once: their frames, and the parts of the
state that they neither read nor write. -/

namespace Sys2Proof.Machine

/-! ### Retirement -/

@[simp] theorem retireBy_inReset (check : DirSlot → List Version × List Version) (s : State) : (retireBy check s).inReset = s.inReset := rfl
@[simp] theorem retireBy_adr (check : DirSlot → List Version × List Version) (s : State) : (retireBy check s).adr = s.adr := rfl
@[simp] theorem retireBy_priv (check : DirSlot → List Version × List Version) (s : State) : (retireBy check s).priv = s.priv := rfl
@[simp] theorem retireBy_ifaces (check : DirSlot → List Version × List Version) (s : State) : (retireBy check s).ifaces = s.ifaces := rfl
@[simp] theorem retireBy_snaps (check : DirSlot → List Version × List Version) (s : State) : (retireBy check s).snaps = s.snaps := rfl
@[simp] theorem retireBy_slot4 (check : DirSlot → List Version × List Version) (s : State) : (retireBy check s).slot4 = s.slot4 := rfl
@[simp] theorem retireBy_g (check : DirSlot → List Version × List Version) (s : State) : (retireBy check s).g = s.g := rfl
@[simp] theorem retireBy_txns (check : DirSlot → List Version × List Version) (s : State) : (retireBy check s).txns = s.txns := rfl
@[simp] theorem retireBy_commitQueue (check : DirSlot → List Version × List Version) (s : State) : (retireBy check s).commitQueue = s.commitQueue := rfl
@[simp] theorem retireBy_notes (check : DirSlot → List Version × List Version) (s : State) : (retireBy check s).notes = s.notes := rfl
@[simp] theorem retireBy_image (check : DirSlot → List Version × List Version) (s : State) : (retireBy check s).image = s.image := rfl
@[simp] theorem retireBy_flash (check : DirSlot → List Version × List Version) (s : State) : (retireBy check s).flash = s.flash := rfl
@[simp] theorem retireBy_pending (check : DirSlot → List Version × List Version) (s : State) : (retireBy check s).pending = s.pending := rfl
@[simp] theorem retireOnRelease_inReset (s : State) : (retireOnRelease s).inReset = s.inReset := rfl
@[simp] theorem retireOnRelease_adr (s : State) : (retireOnRelease s).adr = s.adr := rfl
@[simp] theorem retireOnRelease_priv (s : State) : (retireOnRelease s).priv = s.priv := rfl
@[simp] theorem retireOnRelease_ifaces (s : State) : (retireOnRelease s).ifaces = s.ifaces := rfl
@[simp] theorem retireOnRelease_snaps (s : State) : (retireOnRelease s).snaps = s.snaps := rfl
@[simp] theorem retireOnRelease_slot4 (s : State) : (retireOnRelease s).slot4 = s.slot4 := rfl
@[simp] theorem retireOnRelease_g (s : State) : (retireOnRelease s).g = s.g := rfl
@[simp] theorem retireOnRelease_txns (s : State) : (retireOnRelease s).txns = s.txns := rfl
@[simp] theorem retireOnRelease_commitQueue (s : State) : (retireOnRelease s).commitQueue = s.commitQueue := rfl
@[simp] theorem retireOnRelease_notes (s : State) : (retireOnRelease s).notes = s.notes := rfl
@[simp] theorem retireOnRelease_image (s : State) : (retireOnRelease s).image = s.image := rfl
@[simp] theorem retireOnRelease_flash (s : State) : (retireOnRelease s).flash = s.flash := rfl
@[simp] theorem retireOnRelease_pending (s : State) : (retireOnRelease s).pending = s.pending := rfl

theorem retireOnRelease_setIface (p : Port) (x : Iface) (s : State) :
    retireOnRelease (s.setIface p x) = (retireOnRelease s).setIface p x := rfl

theorem retireOnRelease_setNote (p : Port) (x : Notify) (s : State) :
    retireOnRelease (s.setNote p x) = (retireOnRelease s).setNote p x := rfl

/-- A retirement changes the directory, the pool and the engine's reservations alone. -/
theorem retireOnRelease_frame (s : State) : retireOnRelease s = { s with
    directory := (retireOnRelease s).directory
    pool := (retireOnRelease s).pool
    engine := (retireOnRelease s).engine } := rfl

/-- A retirement changes nothing of a commit in progress but its reserved slots. -/
theorem retireOnRelease_engine (s : State) :
    (s.engine = .idle → (retireOnRelease s).engine = .idle)
    ∧ ∀ c, s.engine = .digesting c → ∃ slots, (retireOnRelease s).engine = .digesting { c with reservedSlots := slots } := by
  constructor
  · intro h
    simp [retireOnRelease, retireBy, h, Engine.passSlots]
  · intro c h
    refine ⟨reservedSlots (retireOnRelease s).engine, ?_⟩
    simp only [retireOnRelease, retireBy, h, Engine.passSlots, reservedSlots]

/-! ### Delivery of events -/

@[simp] theorem deliver_inReset (p : Port) (e : Event) (f : FlagSet) (s : State) : (deliver p e f s).inReset = s.inReset := rfl
@[simp] theorem deliverRecordEvent_inReset (e : Event) (s : State) : (deliverRecordEvent e s).inReset = s.inReset := rfl
@[simp] theorem deliverImageDone_inReset (e : Event) (s : State) : (deliverImageDone e s).inReset = s.inReset := rfl
@[simp] theorem raiseLoaded_inReset (s : State) : (raiseLoaded s).inReset = s.inReset := rfl
@[simp] theorem deliver_adr (p : Port) (e : Event) (f : FlagSet) (s : State) : (deliver p e f s).adr = s.adr := rfl
@[simp] theorem deliverRecordEvent_adr (e : Event) (s : State) : (deliverRecordEvent e s).adr = s.adr := rfl
@[simp] theorem deliverImageDone_adr (e : Event) (s : State) : (deliverImageDone e s).adr = s.adr := rfl
@[simp] theorem raiseLoaded_adr (s : State) : (raiseLoaded s).adr = s.adr := rfl
@[simp] theorem deliver_priv (p : Port) (e : Event) (f : FlagSet) (s : State) : (deliver p e f s).priv = s.priv := rfl
@[simp] theorem deliverRecordEvent_priv (e : Event) (s : State) : (deliverRecordEvent e s).priv = s.priv := rfl
@[simp] theorem deliverImageDone_priv (e : Event) (s : State) : (deliverImageDone e s).priv = s.priv := rfl
@[simp] theorem raiseLoaded_priv (s : State) : (raiseLoaded s).priv = s.priv := rfl
@[simp] theorem deliver_ifaces (p : Port) (e : Event) (f : FlagSet) (s : State) : (deliver p e f s).ifaces = s.ifaces := rfl
@[simp] theorem deliverRecordEvent_ifaces (e : Event) (s : State) : (deliverRecordEvent e s).ifaces = s.ifaces := rfl
@[simp] theorem deliverImageDone_ifaces (e : Event) (s : State) : (deliverImageDone e s).ifaces = s.ifaces := rfl
@[simp] theorem raiseLoaded_ifaces (s : State) : (raiseLoaded s).ifaces = s.ifaces := rfl
@[simp] theorem deliver_snaps (p : Port) (e : Event) (f : FlagSet) (s : State) : (deliver p e f s).snaps = s.snaps := rfl
@[simp] theorem deliverRecordEvent_snaps (e : Event) (s : State) : (deliverRecordEvent e s).snaps = s.snaps := rfl
@[simp] theorem deliverImageDone_snaps (e : Event) (s : State) : (deliverImageDone e s).snaps = s.snaps := rfl
@[simp] theorem raiseLoaded_snaps (s : State) : (raiseLoaded s).snaps = s.snaps := rfl
@[simp] theorem deliver_slot4 (p : Port) (e : Event) (f : FlagSet) (s : State) : (deliver p e f s).slot4 = s.slot4 := rfl
@[simp] theorem deliverRecordEvent_slot4 (e : Event) (s : State) : (deliverRecordEvent e s).slot4 = s.slot4 := rfl
@[simp] theorem deliverImageDone_slot4 (e : Event) (s : State) : (deliverImageDone e s).slot4 = s.slot4 := rfl
@[simp] theorem raiseLoaded_slot4 (s : State) : (raiseLoaded s).slot4 = s.slot4 := rfl
@[simp] theorem deliver_g (p : Port) (e : Event) (f : FlagSet) (s : State) : (deliver p e f s).g = s.g := rfl
@[simp] theorem deliverRecordEvent_g (e : Event) (s : State) : (deliverRecordEvent e s).g = s.g := rfl
@[simp] theorem deliverImageDone_g (e : Event) (s : State) : (deliverImageDone e s).g = s.g := rfl
@[simp] theorem raiseLoaded_g (s : State) : (raiseLoaded s).g = s.g := rfl
@[simp] theorem deliver_directory (p : Port) (e : Event) (f : FlagSet) (s : State) : (deliver p e f s).directory = s.directory := rfl
@[simp] theorem deliverRecordEvent_directory (e : Event) (s : State) : (deliverRecordEvent e s).directory = s.directory := rfl
@[simp] theorem deliverImageDone_directory (e : Event) (s : State) : (deliverImageDone e s).directory = s.directory := rfl
@[simp] theorem raiseLoaded_directory (s : State) : (raiseLoaded s).directory = s.directory := rfl
@[simp] theorem deliver_pool (p : Port) (e : Event) (f : FlagSet) (s : State) : (deliver p e f s).pool = s.pool := rfl
@[simp] theorem deliverRecordEvent_pool (e : Event) (s : State) : (deliverRecordEvent e s).pool = s.pool := rfl
@[simp] theorem deliverImageDone_pool (e : Event) (s : State) : (deliverImageDone e s).pool = s.pool := rfl
@[simp] theorem raiseLoaded_pool (s : State) : (raiseLoaded s).pool = s.pool := rfl
@[simp] theorem deliver_txns (p : Port) (e : Event) (f : FlagSet) (s : State) : (deliver p e f s).txns = s.txns := rfl
@[simp] theorem deliverRecordEvent_txns (e : Event) (s : State) : (deliverRecordEvent e s).txns = s.txns := rfl
@[simp] theorem deliverImageDone_txns (e : Event) (s : State) : (deliverImageDone e s).txns = s.txns := rfl
@[simp] theorem raiseLoaded_txns (s : State) : (raiseLoaded s).txns = s.txns := rfl
@[simp] theorem deliver_commitQueue (p : Port) (e : Event) (f : FlagSet) (s : State) : (deliver p e f s).commitQueue = s.commitQueue := rfl
@[simp] theorem deliverRecordEvent_commitQueue (e : Event) (s : State) : (deliverRecordEvent e s).commitQueue = s.commitQueue := rfl
@[simp] theorem deliverImageDone_commitQueue (e : Event) (s : State) : (deliverImageDone e s).commitQueue = s.commitQueue := rfl
@[simp] theorem raiseLoaded_commitQueue (s : State) : (raiseLoaded s).commitQueue = s.commitQueue := rfl
@[simp] theorem deliver_engine (p : Port) (e : Event) (f : FlagSet) (s : State) : (deliver p e f s).engine = s.engine := rfl
@[simp] theorem deliverRecordEvent_engine (e : Event) (s : State) : (deliverRecordEvent e s).engine = s.engine := rfl
@[simp] theorem deliverImageDone_engine (e : Event) (s : State) : (deliverImageDone e s).engine = s.engine := rfl
@[simp] theorem raiseLoaded_engine (s : State) : (raiseLoaded s).engine = s.engine := rfl
@[simp] theorem deliver_image (p : Port) (e : Event) (f : FlagSet) (s : State) : (deliver p e f s).image = s.image := rfl
@[simp] theorem deliverRecordEvent_image (e : Event) (s : State) : (deliverRecordEvent e s).image = s.image := rfl
@[simp] theorem deliverImageDone_image (e : Event) (s : State) : (deliverImageDone e s).image = s.image := rfl
@[simp] theorem raiseLoaded_image (s : State) : (raiseLoaded s).image = s.image := rfl
@[simp] theorem deliver_flash (p : Port) (e : Event) (f : FlagSet) (s : State) : (deliver p e f s).flash = s.flash := rfl
@[simp] theorem deliverRecordEvent_flash (e : Event) (s : State) : (deliverRecordEvent e s).flash = s.flash := rfl
@[simp] theorem deliverImageDone_flash (e : Event) (s : State) : (deliverImageDone e s).flash = s.flash := rfl
@[simp] theorem raiseLoaded_flash (s : State) : (raiseLoaded s).flash = s.flash := rfl
@[simp] theorem deliver_pending (p : Port) (e : Event) (f : FlagSet) (s : State) : (deliver p e f s).pending = s.pending := rfl
@[simp] theorem deliverRecordEvent_pending (e : Event) (s : State) : (deliverRecordEvent e s).pending = s.pending := rfl
@[simp] theorem deliverImageDone_pending (e : Event) (s : State) : (deliverImageDone e s).pending = s.pending := rfl
@[simp] theorem raiseLoaded_pending (s : State) : (raiseLoaded s).pending = s.pending := rfl

theorem deliver_setIface (p q : Port) (e : Event) (f : FlagSet) (x : Iface) (s : State) :
    deliver q e f (s.setIface p x) = (deliver q e f s).setIface p x := rfl

theorem deliverRecordEvent_notes (e : Event) (s : State) (q : Port) :
    (deliverRecordEvent e s).notes.get q
      = if e.tag ∈ (s.notes.get q).watches then (s.notes.get q).arrive e else s.notes.get q := by
  simp only [deliverRecordEvent, PortMap.get_mapPorts]

theorem deliverImageDone_notes (e : Event) (s : State) (q : Port) :
    (deliverImageDone e s).notes.get q
      = if privileged s q then ((s.notes.get q).arrive e).raise flagImage else s.notes.get q := by
  simp only [deliverImageDone, PortMap.get_mapPorts]

theorem raiseLoaded_notes (s : State) (q : Port) :
    (raiseLoaded s).notes.get q = (s.notes.get q).raise flagLoaded := by
  simp only [raiseLoaded, PortMap.get_mapPorts]

/-! ### The end of a transaction without a publish -/

theorem discardTxn_eq (p : Port) (o : TxnOutcome) (s : State) :
    discardTxn p o s = { s with pool := releaseBodies p s.pool (s.txns.get p).intents }.setTxn p
      ⟨.none, [], none, (s.txns.get p).refusal, o⟩ := rfl

theorem rejectTxn_eq (p : Port) (o : TxnOutcome) (s : State) :
    rejectTxn p o s = deliver p ⟨.commitDone, 0x0000#16, o.gen, .outcome o.name⟩ flagTxnEnded
      ({ s with pool := releaseBodies p s.pool (s.txns.get p).intents }.setTxn p
        ⟨.none, [], none, (s.txns.get p).refusal, o⟩) := rfl

/-! ### Staging requests -/

/-- What a staging request does, by the state of its context. -/
theorem staging_cases (p : Port) (act : Except Refused State) (s : State) :
    ((s.txns.get p).state = .none → staging p act s = (s, Answer.bare .noTxn))
    ∧ ((s.txns.get p).state = .queued ∨ (s.txns.get p).state = .applying ∨ (s.txns.get p).state = .detached →
      staging p act s = (s, Answer.bare .busy))
    ∧ ((s.txns.get p).state = .opened →
      (∀ t, act = .ok t → staging p act s = (noteStaging p .none t, Answer.bare .ok))
      ∧ (∀ r, act = .error (.plain r) → staging p act s = (noteStaging p .none s, Answer.bare r))
      ∧ (∀ d, act = .error (.noSpace d) → staging p act s = (noteStaging p d s, Answer.bare .noSpace))) := by
  refine ⟨fun h => ?_, fun h => ?_, fun h => ⟨?_, ?_, ?_⟩⟩
  · simp only [staging, h]
  · rcases h with h | h | h <;> simp only [staging, h]
  · rintro t rfl
    simp only [staging, h]
  · rintro r rfl
    simp only [staging, h]
  · rintro d rfl
    simp only [staging, h]

/-- What a staged claim can answer: PAGES when the change ran short, QUOTA when the count would pass it, and
otherwise the changed pool and body with the port's count. -/
theorem stagedClaim_cases (p : Port) (pool : Pool) (body : StagedBody) (change : Option (Pool × StagedBody)) :
    (change = none → stagedClaim p pool body change = .error .pages)
    ∧ ∀ pool' body', change = some (pool', body') →
      let owned := pool.stagedOwned.get p + body'.ownedCount - body.ownedCount
      (Config.stagingQuota < owned → stagedClaim p pool body change = .error .quota)
      ∧ (owned ≤ Config.stagingQuota →
        stagedClaim p pool body change = .ok ({ pool' with stagedOwned := pool'.stagedOwned.set p owned }, body')) := by
  refine ⟨?_, ?_⟩
  · rintro rfl
    rfl
  · rintro pool' body' rfl
    refine ⟨fun h => ?_, fun h => ?_⟩
    · simp only [stagedClaim, h, if_true]
    · simp only [stagedClaim, Nat.not_lt.mpr h, if_false]

/-! ### The hold timer and the start of a read frame -/

/-- What the hold timer's expiry does: nothing unless the slot is HELD and the timer due; then a deferred lapse in a
read frame and a lapse outside one. -/
theorem expireHold_cases (p : Port) (s : State) :
    ((s.snaps.get p).hold ≠ some 0 → expireHold p s = s)
    ∧ ((∀ g, (s.snaps.get p).state ≠ .held g) → expireHold p s = s)
    ∧ ∀ g, (s.snaps.get p).state = .held g → (s.snaps.get p).hold = some 0 →
      (readFrameOpen p s = true → expireHold p s = s.setSnap p ⟨.held g, none, true⟩)
      ∧ (readFrameOpen p s = false → expireHold p s = lapse p g s) := by
  refine ⟨fun h => ?_, fun h => ?_, fun g hs hh => ⟨fun hf => ?_, fun hf => ?_⟩⟩
  · have hd : (s.snaps.get p).hold.due = false := by simpa [Timer.due] using h
    simp only [expireHold, hd]
    split <;> rfl
  · cases e : (s.snaps.get p).state with
    | held g => exact absurd e (h g)
    | free | frame _ | lapsed => simp only [expireHold, e]
  all_goals simp [expireHold, hs, hh, Timer.due, hf]

/-- What step 2 of R171 does to the slot of a port with no frame open. -/
theorem bindFrame_cases (p : Port) (streaming : Bool) (s : State) (hf : readFrameOpen p s = false) :
    (∀ g, (s.snaps.get p).state = .held g →
      ((s.snaps.get p).hold = some 0 → bindFrame p streaming s = lapse p g s)
      ∧ ((s.snaps.get p).hold ≠ some 0 →
        bindFrame p streaming s = s.setSnap p { s.snaps.get p with hold := loadHold p s }))
    ∧ ((s.snaps.get p).state = .free →
      bindFrame p streaming s = if streaming then s.setSnap p { s.snaps.get p with state := .frame s.g } else s)
    ∧ ((s.snaps.get p).state = .lapsed → bindFrame p streaming s = s) := by
  refine ⟨fun g hs => ⟨fun hh => ?_, fun hh => ?_⟩, fun hs => ?_, fun hs => ?_⟩
  · have hl : ((lapse p g s).snaps.get p).state = .lapsed := by simp [lapse]
    simp only [bindFrame, ((expireHold_cases p s).2.2 g hs hh).2 hf, bindSlot, hl]
  · simp only [bindFrame, (expireHold_cases p s).1 hh, bindSlot, hs]
  · simp only [bindFrame, (expireHold_cases p s).2.1 (fun g => by simp [hs]), bindSlot, hs]
  · simp only [bindFrame, (expireHold_cases p s).2.1 (fun g => by simp [hs]), bindSlot, hs]

/-! ### The image controller -/

/-- Every end of a checkpoint leaves what R156 lists. -/
theorem endCheckpoint_ended (r : ImageResult) (s : State) : CheckpointEnded r s (endCheckpoint r s) where
  image := rfl
  slotFour := rfl
  directory := rfl
  pool := rfl
  engine := rfl
  notes := fun p => deliverImageDone_notes _ _ p
  rest := rfl

/-- Every end of the load leaves what R150 lists. -/
theorem endLoad_ended (r : LoadResult) (current : Option ImageSlot) (sequence : Gen) (s : State) :
    LoadEnded r current sequence s (endLoad r current sequence s) where
  image := rfl
  notes := fun p => raiseLoaded_notes _ p
  rest := rfl

/-- Trying the valid slots in their order does what R146 says. -/
theorem trySlots_tried (s : State) (slots : List (ImageSlot × ImageHeader)) : SlotsTried s (trySlots s slots) slots := by
  induction slots with
  | nil => exact endLoad_ended _ _ _ s
  | cons x others ih =>
    obtain ⟨i, h⟩ := x
    refine ⟨fun hr => ?_, fun hr hb => ?_, fun hr hb => ?_⟩
    · simp only [trySlots, hr, if_false]
      rfl
    · simp only [trySlots, hr, hb, if_true]
      exact endLoad_ended _ _ _ s
    · simp only [trySlots, hr, hb, if_true, if_false]
      exact ih

/-- The operation with which the load goes on to an entry: none for a head that would run past the slot, the
poll of its read otherwise. -/
theorem entryOp_cases (c : LoadCursor) :
    (65536 < c.offset + 8 → entryOp c = .none) ∧ (c.offset + 8 ≤ 65536 → entryOp c = .poll .loadRead (some 400)) :=
  ⟨fun h => if_pos h, fun h => if_neg (Nat.not_lt.mpr h)⟩

/-- What a load's poll that has read not busy leads to: at slot 0's header the poll of slot 1's, and otherwise the
read. -/
theorem sendLoadRead_cases (s : State) :
    (s.image.loader = .header0 →
      sendLoadRead s = { s with image := { s.image with loader := .header1, op := .poll .loadRead (some 400) } })
    ∧ (s.image.loader ≠ .header0 → sendLoadRead s = { s with image := { s.image with op := .loadRead } }) := by
  refine ⟨fun h => ?_, fun h => ?_⟩
  · simp only [sendLoadRead, h]
    rfl
  · unfold sendLoadRead
    split
    · contradiction
    all_goals rfl

/-- A load's poll fails as the first poll alone, with the load's end EMPTY, NO_IMAGE. -/
theorem failLoadPoll_cases (s : State) :
    (s.image.loader = .header0 → LoadEnded (.empty .noImage) none 0#32 s (failLoadPoll s))
    ∧ (s.image.loader ≠ .header0 → failLoadPoll s = s) := by
  refine ⟨fun h => ?_, fun h => ?_⟩
  · simp only [failLoadPoll, h]
    exact endLoad_ended _ _ _ s
  · unfold failLoadPoll
    split
    · contradiction
    all_goals rfl

/-! ### The directory -/

/-- The chain of a tag after an installation into a directory in ascending tag order. -/
theorem chainOf_install {dir : List DirSlot} (h : (dir.map DirSlot.tag).Pairwise (· < ·)) (tag tag' : Tag) (v : Version) :
    chainOf (install dir tag v) tag' = if tag' = tag then v :: chainOf dir tag else chainOf dir tag' := by
  induction dir with
  | nil =>
    by_cases ht : tag' = tag
    · subst ht
      simp [install, chainOf]
    · simp [install, chainOf, ht, Ne.symm ht]
  | cons d rest ih =>
    rw [List.map_cons, List.pairwise_cons] at h
    have ih := ih h.2
    by_cases hlt : tag < d.tag
    · have hnone : ∀ x ∈ d :: rest, x.tag ≠ tag := by
        intro x hx hxt
        rcases List.mem_cons.mp hx with rfl | hx
        · rw [hxt] at hlt
          exact absurd hlt (BitVec.lt_irrefl _)
        · have hlt' := h.1 x.tag (List.mem_map_of_mem hx)
          rw [hxt] at hlt'
          exact absurd (BitVec.lt_trans hlt hlt') (BitVec.lt_irrefl _)
      have hfind : (d :: rest).find? (fun x => x.tag == tag) = none := by
        simpa [List.find?_eq_none] using hnone
      by_cases ht : tag' = tag
      · subst ht
        simp only [install, hlt, if_true, chainOf, hfind]
        simp
      · simp only [install, hlt, if_true, ht, if_false]
        simp [chainOf, Ne.symm ht]
    · by_cases heq : tag = d.tag
      · by_cases ht : tag' = tag
        · simp [install, heq, chainOf, ht]
        · have hd : (d.tag == tag') = false := by
            rw [beq_eq_false_iff_ne, ← heq]
            exact Ne.symm ht
          have ht' : ¬ tag' = d.tag := heq ▸ ht
          simp [install, heq, chainOf, ht', hd]
      · by_cases hd : d.tag = tag'
        · have ht : ¬ tag' = tag := by
            rw [← hd]
            exact Ne.symm heq
          simp only [install, hlt, if_false, heq, ht]
          simp [chainOf, hd]
        · have hd' : (d.tag == tag') = false := by simpa using hd
          have hd'' : (d.tag == tag) = false := by simpa using Ne.symm heq
          simp only [install, hlt, if_false, heq]
          simp only [chainOf, List.find?_cons, hd', hd''] at ih ⊢
          exact ih

/-! ### Timers -/

theorem Timer.tick_eq_map (t : Timer) : t.tick = t.map (· - 1) := by
  match t with
  | none => rfl
  | some 0 => rfl
  | some (n + 1) => rfl

theorem Timer.due_iff (t : Timer) : t.due = true ↔ t = some 0 := by
  simp [Timer.due]

/-- An SCL edge reloads the stall timer of a port in a frame with the limit in force at the frame's start, and does
nothing on a port with none. -/
theorem clockEdge_cases (p : Port) (s : State) :
    (∀ limit, (∃ bytes, (s.ifaces.get p).frame = .receiving limit bytes) ∨ (∃ f, (s.ifaces.get p).frame = .sending limit f) →
      clockEdge p s = s.setIface p { s.ifaces.get p with stall := Timer.load limit })
    ∧ ((s.ifaces.get p).frame = .idle → clockEdge p s = s) := by
  refine ⟨?_, fun h => by simp only [clockEdge, h]⟩
  rintro limit (⟨_, h⟩ | ⟨_, h⟩) <;> simp only [clockEdge, h]

/-- An expiry waits when the timer of some owner has run out and its owner has not yet acted. -/
theorem expiryWaits_iff (s : State) : expiryWaits s = true ↔
    (∃ p, (s.ifaces.get p).stall = some 0 ∨ (s.snaps.get p).hold = some 0 ∨ (s.txns.get p).idle = some 0)
      ∨ s.image.op.timer = some 0 := by
  have all : ∀ p : Port, p ∈ Port.all := by intro p; cases p <;> decide
  simp only [expiryWaits, Bool.or_eq_true, List.any_eq_true, Timer.due_iff, all, true_and, or_assoc]

end Sys2Proof.Machine
end

