-- ==== Sys2Proof/Laws/Memory.lean ====
section
/-! SUPPORT. The memory laws: a read after a write to the same address gives the value written, a write leaves
every other address alone, and every memory operation keeps the canonical form. -/

namespace Sys2Proof.Machine

variable {β : Type} [DecidableEq β] {d : β}

/-! ### The canonical form -/

theorem cellsWfFrom_cons (low k : Nat) (v : β) (rest : List (Nat × β)) :
    cellsWfFrom d low ((k, v) :: rest) = true ↔ low ≤ k ∧ v ≠ d ∧ cellsWfFrom d (k + 1) rest = true := by
  simp [cellsWfFrom, and_assoc]

theorem cellsWfFrom_mono {low low' : Nat} (h : low' ≤ low) {m : List (Nat × β)} (hm : cellsWfFrom d low m = true) :
    cellsWfFrom d low' m = true := by
  cases m with
  | nil => rfl
  | cons c rest =>
    obtain ⟨k, v⟩ := c
    rw [cellsWfFrom_cons] at hm ⊢
    exact ⟨le_trans h hm.1, hm.2⟩

/-- Below its first address a memory in canonical form reads as the default. -/
theorem cellRead_of_lt {low : Nat} {m : List (Nat × β)} (hm : cellsWfFrom d low m = true) {a : Nat} (h : a < low) :
    cellRead d m a = d := by
  induction m generalizing low with
  | nil => rfl
  | cons c rest ih =>
    obtain ⟨k, v⟩ := c
    rw [cellsWfFrom_cons] at hm
    have hk : k ≠ a := by omega
    simp only [cellRead, hk, if_false]
    exact ih hm.2.2 (by omega)

/-! ### Writing one address -/

theorem cellRead_cellWrite_self {low : Nat} {m : List (Nat × β)} (hm : cellsWfFrom d low m = true) (a : Nat) (v : β) :
    cellRead d (cellWrite d m a v) a = v := by
  induction m generalizing low with
  | nil => by_cases hv : v = d <;> simp [cellWrite, cellRead, hv]
  | cons c rest ih =>
    obtain ⟨k, w⟩ := c
    rw [cellsWfFrom_cons] at hm
    rcases lt_trichotomy a k with h | h | h
    · have hr : cellRead d rest a = d := cellRead_of_lt hm.2.2 (by omega)
      have hk : k ≠ a := by omega
      by_cases hv : v = d <;> simp [cellWrite, cellRead, hv, h, hk, hr]
    · subst h
      have hr : cellRead d rest a = d := cellRead_of_lt hm.2.2 (by omega)
      by_cases hv : v = d <;> simp [cellWrite, cellRead, hv, hr]
    · have h1 : ¬ a < k := by omega
      have h2 : a ≠ k := by omega
      have h3 : k ≠ a := by omega
      simp only [cellWrite, h1, if_false, h2, cellRead, h3]
      exact ih hm.2.2

theorem cellRead_cellWrite_of_ne (m : List (Nat × β)) {a b : Nat} (v : β) (h : b ≠ a) :
    cellRead d (cellWrite d m a v) b = cellRead d m b := by
  have h' : a ≠ b := Ne.symm h
  induction m with
  | nil => by_cases hv : v = d <;> simp [cellWrite, cellRead, hv, h']
  | cons c rest ih =>
    obtain ⟨k, w⟩ := c
    by_cases hlt : a < k
    · by_cases hv : v = d <;> simp [cellWrite, cellRead, hv, hlt, h']
    · by_cases hk : a = k
      · subst hk
        by_cases hv : v = d <;> simp [cellWrite, cellRead, hv, h']
      · simp only [cellWrite, hlt, if_false, hk, cellRead, ih]

theorem cellsWfFrom_cellWrite {low : Nat} {m : List (Nat × β)} (hm : cellsWfFrom d low m = true) {a : Nat} (ha : low ≤ a)
    (v : β) : cellsWfFrom d low (cellWrite d m a v) = true := by
  induction m generalizing low with
  | nil =>
    by_cases hv : v = d
    · simp [cellWrite, hv, cellsWfFrom]
    · simp [cellWrite, hv, cellsWfFrom, ha]
  | cons c rest ih =>
    obtain ⟨k, w⟩ := c
    have hm' := hm
    rw [cellsWfFrom_cons] at hm
    by_cases hlt : a < k
    · by_cases hv : v = d
      · simpa [cellWrite, hlt, hv] using hm'
      · simp only [cellWrite, hlt, if_true, hv, if_false]
        rw [cellsWfFrom_cons, cellsWfFrom_cons]
        exact ⟨ha, hv, hlt, hm.2⟩
    · by_cases hk : a = k
      · subst hk
        by_cases hv : v = d
        · simp only [cellWrite, lt_irrefl, if_false, if_true, hv]
          exact cellsWfFrom_mono (by omega) hm.2.2
        · simp only [cellWrite, lt_irrefl, if_false, if_true, hv]
          rw [cellsWfFrom_cons]
          exact ⟨ha, hv, hm.2.2⟩
      · simp only [cellWrite, hlt, if_false, hk]
        rw [cellsWfFrom_cons]
        exact ⟨hm.1, hm.2.1, ih hm.2.2 (by omega)⟩

/-- A write keeps the canonical form. -/
theorem cellsWf_cellWrite {m : List (Nat × β)} (hm : cellsWf d m = true) (a : Nat) (v : β) :
    cellsWf d (cellWrite d m a v) = true :=
  cellsWfFrom_cellWrite hm (Nat.zero_le a) v

/-- Dropping entries keeps the canonical form. -/
theorem cellsWfFrom_filter {low : Nat} {m : List (Nat × β)} (hm : cellsWfFrom d low m = true) (f : Nat × β → Bool) :
    cellsWfFrom d low (m.filter f) = true := by
  induction m generalizing low with
  | nil => rfl
  | cons c rest ih =>
    obtain ⟨k, v⟩ := c
    rw [cellsWfFrom_cons] at hm
    by_cases hf : f (k, v) = true
    · rw [List.filter_cons_of_pos hf, cellsWfFrom_cons]
      exact ⟨hm.1, hm.2.1, ih hm.2.2⟩
    · rw [List.filter_cons_of_neg hf]
      exact cellsWfFrom_mono (by omega) (ih hm.2.2)

/-! ### Blocks of bytes -/

theorem writeBlock_wf (b : Byte) {m : Memory} (hm : Memory.wf b m = true) (a : Nat) (bs : List Byte) :
    Memory.wf b (writeBlock b m a bs) = true := by
  induction bs generalizing m a with
  | nil => exact hm
  | cons x bs ih => exact ih (cellsWf_cellWrite hm a x) (a + 1)

theorem cellRead_writeBlock_of_lt (b : Byte) (m : Memory) (a : Nat) (bs : List Byte) {c : Nat} (h : c < a) :
    cellRead b (writeBlock b m a bs) c = cellRead b m c := by
  induction bs generalizing m a with
  | nil => rfl
  | cons x bs ih =>
    rw [writeBlock, ih _ _ (by omega), cellRead_cellWrite_of_ne _ _ (by omega)]

/-- What a block write leaves at every address. -/
theorem cellRead_writeBlock (b : Byte) {m : Memory} (hm : Memory.wf b m = true) (a : Nat) (bs : List Byte) (c : Nat) :
    cellRead b (writeBlock b m a bs) c
      = if a ≤ c ∧ c < a + bs.length then bs.getD (c - a) b else cellRead b m c := by
  induction bs generalizing m a with
  | nil =>
    have h : ¬ (a ≤ c ∧ c < a + ([] : List Byte).length) := by simp
    rw [if_neg h, writeBlock]
  | cons x bs ih =>
    rw [writeBlock, ih (cellsWf_cellWrite hm a x)]
    rcases lt_trichotomy c a with h | h | h
    · rw [if_neg (by omega), if_neg (by omega), cellRead_cellWrite_of_ne _ _ (by omega)]
    · subst h
      rw [if_neg (by omega), if_pos (by simp), cellRead_cellWrite_self hm]
      simp
    · by_cases hb : c < a + 1 + bs.length
      · have hs : c - a = (c - (a + 1)) + 1 := by omega
        rw [if_pos ⟨by omega, hb⟩, if_pos ⟨by omega, by simp only [List.length_cons]; omega⟩, hs,
          List.getD_cons_succ]
      · rw [if_neg (by omega), if_neg (by simp only [List.length_cons]; omega),
          cellRead_cellWrite_of_ne _ _ (by omega)]

theorem readBlock_length (b : Byte) (m : Memory) (a n : Nat) : (readBlock b m a n).length = n := by
  simp [readBlock]

/-! ### The flash -/

theorem eraseSector_wf {m : Memory} (hm : Memory.wf erasedByte m = true) (addr : Nat) :
    Memory.wf erasedByte (eraseSector m addr) = true :=
  cellsWfFrom_filter hm _

theorem programUnit_wf {m : Memory} (hm : Memory.wf erasedByte m = true) (addr : Nat) (data : List Byte) :
    Memory.wf erasedByte (programUnit m addr data) = true :=
  writeBlock_wf _ hm _ _

theorem FlashRun.land_wf {m : Memory} (hm : Memory.wf erasedByte m = true) (left : Option (List Byte)) (run : FlashRun) :
    Memory.wf erasedByte (run.land m left) = true := by
  cases run <;> cases left <;>
    simp only [FlashRun.land, writeBlock_wf _ hm, eraseSector_wf hm, programUnit_wf hm]

theorem Flash.settle_wf {f : Flash} (hm : Memory.wf erasedByte f.mem = true) (left : Option (List Byte)) :
    Memory.wf erasedByte (f.settle left).mem = true := by
  unfold Flash.settle
  split
  · exact hm
  · exact FlashRun.land_wf hm left _

theorem Flash.cutOff_wf {f : Flash} (hm : Memory.wf erasedByte f.mem = true) (left : Option (List Byte)) :
    Memory.wf erasedByte (f.cutOff left).mem = true := by
  unfold Flash.cutOff
  split
  · exact hm
  · exact hm
  · rename_i run bs _
    exact FlashRun.land_wf hm (some bs) run

/-! ### The page pool -/

theorem Pool.fill_wf {pool : Pool} (h : Memory.wf 0#8 pool.bytes = true) (n : PageNo) (offset : Nat) (bs : List Byte) :
    Memory.wf 0#8 (pool.fill n offset bs).bytes = true :=
  writeBlock_wf _ h _ _

theorem Pool.gain_wf {pool : Pool} (h : cellsWf 0 pool.refs = true) (n : PageNo) :
    cellsWf 0 (pool.gain n).refs = true :=
  cellsWf_cellWrite h _ _

theorem Pool.lose_wf {pool : Pool} (h : cellsWf 0 pool.refs = true) (n : PageNo) :
    cellsWf 0 (pool.lose n).refs = true := by
  unfold Pool.lose
  split
  · exact h
  · exact cellsWf_cellWrite h _ _
  · exact cellsWf_cellWrite h _ _

theorem Pool.lose_bytes (pool : Pool) (n : PageNo) : (pool.lose n).bytes = pool.bytes := by
  unfold Pool.lose
  split <;> rfl

theorem Pool.loseAll_bytes (pool : Pool) (ns : List PageNo) : (pool.loseAll ns).bytes = pool.bytes := by
  induction ns generalizing pool with
  | nil => rfl
  | cons n ns ih => exact (ih _).trans (Pool.lose_bytes pool n)

theorem Pool.loseAll_wf {pool : Pool} (h : cellsWf 0 pool.refs = true) (ns : List PageNo) :
    cellsWf 0 (pool.loseAll ns).refs = true := by
  induction ns generalizing pool with
  | nil => exact h
  | cons n ns ih => exact ih (Pool.lose_wf h n)

theorem Pool.gainAll_wf {pool : Pool} (h : cellsWf 0 pool.refs = true) (ns : List PageNo) :
    cellsWf 0 (pool.gainAll ns).refs = true := by
  induction ns generalizing pool with
  | nil => exact h
  | cons n ns ih => exact ih (Pool.gain_wf h n)

theorem Pool.alloc_wf {pool pool' : Pool} {contents : List Byte} {n : PageNo} (hb : Memory.wf 0#8 pool.bytes = true)
    (hr : cellsWf 0 pool.refs = true) (h : pool.alloc contents = some (n, pool')) :
    Memory.wf 0#8 pool'.bytes = true ∧ cellsWf 0 pool'.refs = true := by
  unfold Pool.alloc at h
  split at h
  · cases h
  · cases h
    exact ⟨writeBlock_wf _ hb _ _, cellsWf_cellWrite hr _ _⟩

/-! ### After reset -/

/-- The memories of device reset stand in canonical form. -/
theorem memories_reset_wf : Memory.wf 0#8 State.reset.pool.bytes = true
    ∧ cellsWf 0 State.reset.pool.refs = true ∧ Memory.wf erasedByte State.reset.flash.mem = true := by
  decide

end Sys2Proof.Machine
end

