-- ==== Sys2Proof/Laws/Operands.lean ====
section
/-! SUPPORT. What the layouts of chapter 10 read back: multi-byte fields, the arguments of request frames, and
declared lengths. -/

namespace Sys2Proof.Machine

/-! ### Multi-byte fields -/

theorem fromBe_be16 (v : BitVec 16) : fromBe (be16 v) = v.toNat := by
  have h := v.isLt
  simp [fromBe, be16, BitVec.extractLsb'_toNat, Nat.shiftRight_eq_div_pow]
  omega

theorem fromBe_be32 (v : BitVec 32) : fromBe (be32 v) = v.toNat := by
  have h := v.isLt
  simp [fromBe, be32, BitVec.extractLsb'_toNat, Nat.shiftRight_eq_div_pow]
  omega

theorem be16_length (v : BitVec 16) : (be16 v).length = 2 := rfl

theorem be32_length (v : BitVec 32) : (be32 v).length = 4 := rfl

/-- A two-byte field is read back wherever it stands. -/
theorem fieldAt_be16 (before : List Byte) (v : BitVec 16) (behind : List Byte) :
    fieldAt (before ++ (be16 v ++ behind)) before.length 2 = v.toNat := by
  rw [fieldAt, List.drop_left, List.take_append_of_le_length (by simp [be16_length]), ← fromBe_be16 v]
  rfl

/-- A four-byte field is read back wherever it stands. -/
theorem fieldAt_be32 (before : List Byte) (v : BitVec 32) (behind : List Byte) :
    fieldAt (before ++ (be32 v ++ behind)) before.length 4 = v.toNat := by
  rw [fieldAt, List.drop_left, List.take_append_of_le_length (by simp [be32_length]), ← fromBe_be32 v]
  rfl

/-! ### Arguments of request frames -/

/-- The tag at the start of the arguments. -/
theorem argTag_be16 (tag : Tag) (behind : List Byte) : argTag (be16 tag ++ behind) = tag := by
  have h := fieldAt_be16 [] tag behind
  simp only [List.nil_append, List.length_nil] at h
  rw [argTag, h, BitVec.ofNat_toNat, BitVec.setWidth_eq]

theorem argTag_be16_only (tag : Tag) : argTag (be16 tag) = tag := by
  simpa using argTag_be16 tag []

/-- The 16-bit field at the start of the arguments. -/
theorem arg16_be16 (v : BitVec 16) (behind : List Byte) : arg16 (be16 v ++ behind) 0 = v.toNat := by
  exact fieldAt_be16 [] v behind

/-- The 16-bit field behind a tag or another 16-bit field. -/
theorem arg16_be16_be16 (u v : BitVec 16) (behind : List Byte) : arg16 (be16 u ++ (be16 v ++ behind)) 2 = v.toNat :=
  fieldAt_be16 (be16 u) v behind

/-- The delta behind a tag. -/
theorem argDelta_be32 (tag : Tag) (delta : BitVec 32) : argDelta (be16 tag ++ be32 delta) = delta.toInt := by
  have h := fieldAt_be32 (be16 tag) delta []
  simp only [List.append_nil] at h
  rw [argDelta]
  rw [be16_length] at h
  rw [h, BitVec.ofNat_toNat, BitVec.setWidth_eq]

/-! ### Declared lengths -/

/-- The declared length of a request other than WRITE depends on its code alone. -/
theorem declaredLength_of_ne_write {r : Request} (h : r ≠ .write) (args : List Byte) :
    declaredLength (requestCode r :: args) = fixedLength r := by
  cases r <;> first | rfl | exact absurd rfl h

/-- WRITE's declared length grows with its count field. -/
theorem declaredLength_write (args : List Byte) :
    declaredLength (requestCode .write :: args) = 6 + writeGrowth (requestCode .write :: args) := rfl

/-- A code that names no request is a frame of one byte. -/
theorem declaredLength_unknown {c : Byte} (h : requestOfCode c = none) (args : List Byte) :
    declaredLength (c :: args) = 1 := by
  simp only [declaredLength, h]

end Sys2Proof.Machine
end

