-- ==== Sys2Proof/Tests/Slice0.lean ====
section
/-! SUPPORT. Tests of single commands against the manual's own examples, and for every obligation with
hypotheses a witness that meets them together, clause by clause. -/

set_option Elab.async false

namespace Sys2Proof.Tests

open Sys2Proof.Machine

/-! ### Small states -/

/-- A READY device after an empty load, ports 0 and 1 privileged. -/
def ready : State := { State.reset with
  inReset := false
  priv := 0x3#4
  image := { Image.afterReset with device := .ready, load := .empty .noImage } }

/-- The port's open write frame has brought these bytes. -/
def holding (p : Port) (bytes : List Byte) (s : State) : State :=
  s.setIface p { s.ifaces.get p with frame := .receiving 50 bytes, stall := some 50 }

/-- The port is in a read frame from this source, `sent` bytes of which have been sent. -/
def sending (p : Port) (source : FrameSource) (sent : Nat) (stream : Stream) (s : State) : State :=
  s.setIface p { s.ifaces.get p with frame := .sending 50 ⟨source, sent, false⟩, stall := some 50, stream := stream }

/-- The port's stream. -/
def streaming (p : Port) (stream : Stream) (s : State) : State :=
  s.setIface p { s.ifaces.get p with stream := stream }

/-- The port's slot in a state. -/
def slotIn (p : Port) (state : SlotState) (s : State) : State := s.setSnap p ⟨state, none, false⟩

/-- The port has an open transaction with these intents. -/
def opened (p : Port) (intents : List Intent) (s : State) : State :=
  s.setTxn p ⟨.opened, intents, some 1000, .none, .none⟩

/-- The state after a command. -/
def after (c : Instr) (s : State) : State :=
  match exec c s with
  | .next t => t
  | .fault _ | .refused _ => s

theorem frameHolds_holding (p : Port) (bytes : List Byte) (s : State) : frameHolds p bytes (holding p bytes s) :=
  ⟨50, by simp [holding]⟩

theorem readyWith_holding {p : Port} {bytes : List Byte} {s : State} (h : s.image.device = .ready) :
    readyWith p bytes (holding p bytes s) := ⟨h, frameHolds_holding p bytes s⟩

/-- The attributes of the records below: writer port 1, PERSISTENT. -/
def attrs : Attrs := ⟨0x2#4, .persistent⟩

/-- The record of section 2.7: a BLOB of 100 bytes in pages 0 to 3, published at 20. -/
def blob100 : Version := ⟨20#32, .blob attrs 100 [0, 1, 2, 3] 0x0000#16⟩

/-- A COUNTER of value 12. -/
def counter12 : Version := ⟨15#32, .counter attrs 12#32 (crc16 (be32 12#32))⟩

/-- A store with a COUNTER, a BLOB and a deleted record of which a snapshot still sees a version; the free
list begins with pages 4, 5, 6, 7. -/
def store : State := { ready with
  g := 20#32
  directory := [⟨0x0200#16, [counter12]⟩, ⟨0x0340#16, [blob100]⟩, ⟨0x0500#16, [⟨19#32, .tombstone⟩, ⟨16#32, .counter attrs 0#32 0#16⟩]⟩]
  pool := ⟨[], [(0, 1), (1, 1), (2, 1), (3, 1)], [4, 5, 6, 7, 8, 9], PortMap.same 0⟩ }

/-! ### Well-formedness refuses ill-formed commands -/

theorem test_wf_power_left : Instr.wf (.deviceReset (.power (some [0x00#8]))) = false := by decide +kernel
theorem test_wf_poll_left : Instr.wf (.statusPollReady (some [])) = false := by decide +kernel
theorem test_wf_erase_left : Instr.wf (.eraseDone (some (List.replicate 256 0xFF#8))) = false := by decide +kernel
theorem test_wf_program_left : Instr.wf (.programDone (some (List.replicate 255 0xFF#8))) = false := by decide +kernel
theorem test_wf_readback_received : Instr.wf (.readbackDone (some (List.replicate 257 0xFF#8))) = false := by decide +kernel
theorem test_wf_program_unit : Instr.wf (.programDone (some (List.replicate 256 0xFF#8))) = true := by decide +kernel

/-! ### Codes, declared lengths, CRC (R167, R189, 00 Conventions) -/

theorem test_code_no_request : requestOfCode 0x05#8 = none := by decide +kernel
theorem test_declared_stat : declaredLength [0x12#8] = 3 := by decide +kernel
theorem test_declared_write_count : declaredLength [0x22#8, 0x00#8, 0x01#8, 0x00#8, 0x00#8, 0x40#8] = 70 := by decide +kernel
theorem test_declared_write_count_out_of_range :
    declaredLength [0x22#8, 0x00#8, 0x01#8, 0x00#8, 0x00#8, 0x41#8] = 6 := by decide +kernel

/-- The check value of the CRC-16 that the manual names: "123456789" gives 0x29B1. -/
theorem test_crc_check_value :
    crc16 [0x31#8, 0x32#8, 0x33#8, 0x34#8, 0x35#8, 0x36#8, 0x37#8, 0x38#8, 0x39#8] = 0x29B1#16 := by decide +kernel

theorem test_no_word_spells_a_command : decodeTableWord 8 0x12 = none := by decide +kernel

/-! ### Requests on a port -/

theorem test_deviceStatus_loading :
    ((after (.deviceStatus .p2) (holding .p2 [0x01#8] { ready with image := Image.afterReset })).ifaces.get .p2).reply.payload.take 4
      = [0x00#8, 0x00#8, 0x00#8, 0x00#8] := by decide +kernel

theorem test_configure_range :
    ((after (.configure .p0) (holding .p0 [0x02#8, 0xEA#8, 0x61#8, 0x00#8, 0x00#8, 0x0A#8, 0x00#8] ready)).ifaces.get .p0).reply
      = ⟨.range, 0x02#8, 1#32, [0x03#8, 0xE8#8, 0x07#8, 0xD0#8, 0x32#8, 0x00#8]⟩ := by decide +kernel

theorem test_portReset_frees_the_slot :
    (after (.portReset .p1) (holding .p1 [0x03#8] (slotIn .p1 (.held 20#32) store))).snaps.get .p1 = ⟨.free, none, false⟩ := by
  decide +kernel

/-- Section 6.10, step 11: {QUEUE, TXN_ENDED, OVERFLOW} named, QUEUE stays, the line is released. -/
theorem test_flagClear_step_11 :
    let n : Notify := ⟨[], [⟨.created, 0x0820#16, 302#32, .zero⟩], 1, 0x07#6, 0x06#6, true⟩
    let t := (after (.flagClear .p1) (holding .p1 [0x04#8, 0x07#8] (ready.setNote .p1 n))).notes.get .p1
    (t.flags, t.lost, t.attnLow, t.queue) = (0x01#6, 0, false, n.queue) := by decide +kernel

theorem test_snapOpen_from_lapsed :
    let t := after (.snapOpen .p3) (holding .p3 [0x10#8] (slotIn .p3 .lapsed store))
    (t.snaps.get .p3, (t.ifaces.get .p3).reply) = (⟨.held 20#32, some 2000, false⟩, ⟨.ok, 0x10#8, 20#32, [0x02#8]⟩) := by
  decide +kernel

/-- The release retires the version that only this snapshot saw, and then the tombstone left alone. -/
theorem test_snapClose_retires :
    (after (.snapClose .p3) (holding .p3 [0x11#8] (slotIn .p3 (.held 17#32) store))).directory.map DirSlot.tag
      = [0x0200#16, 0x0340#16] := by decide +kernel

/-- Section 10.7, Table 10-15: STAT of a COUNTER of value 17 published at 600, G at 610. -/
theorem test_stat_table_10_15 :
    let v : Version := ⟨600#32, .counter ⟨0x6#4, .persistent⟩ 17#32 (crc16 [0x00#8, 0x00#8, 0x00#8, 0x11#8])⟩
    let s : State := { ready with g := 610#32, directory := [⟨0x0C40#16, [v]⟩] }
    ((after (.stat .p2) (holding .p2 [0x12#8, 0x0C#8, 0x40#8] s)).ifaces.get .p2).reply.bytes
      = [0x00#8, 0x12#8, 0x00#8, 0x00#8, 0x02#8, 0x62#8, 0x00#8, 0x00#8, 0x02#8, 0x62#8, 0x02#8, 0x01#8, 0x06#8, 0x00#8, 0x04#8]
        ++ be16 (crc16 [0x00#8, 0x00#8, 0x00#8, 0x11#8])
        ++ [0x00#8, 0x00#8, 0x02#8, 0x58#8, 0x00#8, 0x00#8, 0x00#8, 0x11#8] := by decide +kernel

theorem test_read_opens_without_lookup :
    ((after (.read .p2) (holding .p2 [0x13#8, 0x7F#8, 0x00#8, 0x01#8, 0x02#8] ready)).ifaces.get .p2).stream
      = .read 0x7F00#16 258 := by decide +kernel

theorem test_scan_accepts_tag_zero :
    ((after (.scan .p2) (holding .p2 [0x14#8, 0x00#8, 0x00#8] ready)).ifaces.get .p2).stream = .scan 0#16 := by
  decide +kernel

theorem test_begin_opens :
    (after (.beginTxn .p0) (holding .p0 [0x20#8] ready)).txns.get .p0 = ⟨.opened, [], some 1000, .none, .none⟩ := by
  decide +kernel

theorem test_create_of_a_deleted_record :
    ((after (.create .p0) (holding .p0 [0x21#8, 0x05#8, 0x00#8, 0x02#8, 0x0F#8, 0x02#8] (opened .p0 [] store))).txns.get .p0).intents
      = [⟨0x0500#16, .created ⟨0xF#4, .volatile⟩ (.counter 0)⟩] := by decide +kernel

/-- The frame of section 2.7's WRITE 0x0340 at offset 60 with 50 bytes. -/
def write50 : List Byte :=
  [0x22#8, 0x03#8, 0x40#8, 0x00#8, 0x3C#8, 0x32#8] ++ List.replicate 50 0x55#8

/-- The staged body that Table 2-1 tells of: page 0 shared, pages 4, 5, 6 (F1, F2, F3) copied. -/
def body27 : StagedBody := ⟨110, [⟨0, false⟩, ⟨4, true⟩, ⟨5, true⟩, ⟨6, true⟩]⟩

/-- Table 2-1. -/
theorem test_write_table_2_1 :
    let t := after (.write .p1) (holding .p1 write50 (opened .p1 [] store))
    (t.pool.refs, t.pool.free, t.pool.stagedOwned.get .p1, (t.txns.get .p1).intents)
      = ([(0, 2), (1, 1), (2, 1), (3, 1), (4, 1), (5, 1), (6, 1)], [7, 8, 9], 3, [⟨0x0340#16, .written 20#32 body27⟩]) := by
  decide +kernel

/-- Table 2-2: RESIZE to 40, from Table 2-1. -/
theorem test_resize_table_2_2 :
    let pool : Pool := ⟨[], [(0, 2), (1, 1), (2, 1), (3, 1), (4, 1), (5, 1), (6, 1)], [7, 8, 9], ⟨0, 3, 0, 0⟩⟩
    let t := after (.resize .p1) (holding .p1 [0x23#8, 0x03#8, 0x40#8, 0x00#8, 0x28#8]
      (opened .p1 [⟨0x0340#16, .written 20#32 body27⟩] { store with pool := pool }))
    (t.pool.refs, t.pool.free, t.pool.stagedOwned.get .p1, (t.txns.get .p1).intents)
      = ([(0, 2), (1, 1), (2, 1), (3, 1), (4, 1)], [7, 8, 9, 5, 6], 1,
          [⟨0x0340#16, .written 20#32 ⟨40, [⟨0, false⟩, ⟨4, true⟩]⟩⟩]) := by decide +kernel

theorem test_add_needs_permission :
    ((after (.add .p2) (holding .p2 [0x24#8, 0x02#8, 0x00#8, 0xFF#8, 0xFF#8, 0xFF#8, 0xFF#8] (opened .p2 [] store))).ifaces.get .p2).reply
      = ⟨.denied, 0x24#8, 20#32, []⟩ := by decide +kernel

theorem test_delete_keeps_its_base :
    ((after (.delete .p1) (holding .p1 [0x25#8, 0x02#8, 0x00#8] (opened .p1 [⟨0x0200#16, .added 15#32 7⟩] store))).txns.get .p1).intents
      = [⟨0x0200#16, .deleted 15#32⟩] := by decide +kernel

theorem test_commit_queues :
    (after (.commit .p1) (holding .p1 [0x26#8] (opened .p1 [⟨0x0200#16, .added 15#32 7⟩] { store with commitQueue := [.p3] }))).commitQueue
      = [.p3, .p1] := by decide +kernel

theorem test_abort_ends :
    (after (.abort .p1) (holding .p1 [0x27#8] (opened .p1 [⟨0x0200#16, .added 15#32 7⟩] store))).txns.get .p1
      = ⟨.none, [], none, .none, .aborted⟩ := by decide +kernel

theorem test_txnStatus_reports_quota :
    ((after (.txnStatus .p1) (holding .p1 [0x28#8] (store.setTxn .p1 ⟨.opened, [], none, .quota, .none⟩))).ifaces.get .p1).reply.payload
      = [0x01#8, 0x00#8, 0x07#8, 0x00#8, 0x00#8, 0x00#8, 0x00#8, 0x00#8, 0x00#8, 0x00#8, 0x00#8, 0x00#8] := by decide +kernel

theorem test_watch_counts :
    ((after (.watch .p1) (holding .p1 [0x30#8, 0x08#8, 0x40#8]
      (ready.setNote .p1 { Notify.afterReset with watches := [0x0800#16] }))).ifaces.get .p1).reply.payload = [0x02#8] := by
  decide +kernel

theorem test_unwatch_all :
    ((after (.unwatch .p1) (holding .p1 [0x31#8, 0xFF#8, 0xFF#8] ready)).ifaces.get .p1).reply
      = ⟨.ok, 0x31#8, 1#32, [0x00#8]⟩ := by decide +kernel

theorem test_eventPeek_entry :
    ((after (.eventPeek .p1) (holding .p1 [0x32#8]
      (ready.setNote .p1 ⟨[], [⟨.deleted, 0x0820#16, 303#32, .zero⟩], 0, 0x01#6, 0x06#6, false⟩))).ifaces.get .p1).reply.payload
      = [0x01#8, 0x00#8, 0x01#8, 0x03#8, 0x00#8, 0x08#8, 0x20#8, 0x00#8, 0x00#8, 0x01#8, 0x2F#8] := by decide +kernel

theorem test_eventAck_takes_the_oldest :
    ((after (.eventAck .p1) (holding .p1 [0x33#8, 0x01#8]
      (ready.setNote .p1 ⟨[], [⟨.changed, 0x0800#16, 303#32, .zero⟩, ⟨.deleted, 0x0820#16, 303#32, .zero⟩], 0, 0x01#6, 0x06#6, false⟩))).notes.get .p1).queue
      = [⟨.deleted, 0x0820#16, 303#32, .zero⟩] := by decide +kernel

/-- Section 7.8: the target is image slot 1 and the reply gives sequence 8. -/
theorem test_checkpoint_targets_the_other_slot :
    let s : State := { store with image := { ready.image with current := some .slot0, sequence := 7#32 } }
    let t := after (.checkpoint .p1) (holding .p1 [0x40#8] s)
    (t.slot4, (t.ifaces.get .p1).reply.payload) = (some 20#32, [0x01#8, 0x00#8, 0x00#8, 0x00#8, 0x08#8]) := by decide +kernel

theorem test_checkpointCancel_idle :
    ((after (.checkpointCancel .p1) (holding .p1 [0x41#8] ready)).ifaces.get .p1).reply.result = .idle := by decide +kernel

theorem test_unknown_code :
    ((after (.unknownCodeFrame .p1) (holding .p1 [0x77#8] ready)).ifaces.get .p1).reply = ⟨.unknown, 0x77#8, 1#32, []⟩ := by
  decide +kernel

theorem test_empty_frame_keeps_the_stream :
    ((after (.emptyWriteFrame .p1) (streaming .p1 (.scan 5#16) (holding .p1 [] ready))).ifaces.get .p1).stream
      = .scan 5#16 := by decide +kernel

/-! ### Frames, timers, device reset -/

theorem test_other_address_is_not_acknowledged :
    ((after (.writeFrameStart .p1 0x59#7) ready).ifaces.get .p1).bus = .notAcknowledged := by decide +kernel

/-- Section 10.7: the streaming header OK, 13h and the view. -/
theorem test_readFrameStart_binds_the_live_view :
    let t := after (.readFrameStart .p2 0x58#7) (streaming .p2 (.read 0x0200#16 4) store)
    ((t.snaps.get .p2).state, (t.ifaces.get .p2).frame)
      = (.frame 20#32, .sending 50 ⟨.streaming .atEnd 20#32, 0, false⟩) := by decide +kernel

/-- Section 9.4: a read frame begun after the tick that left the hold timer at 0 starts with the slot LAPSED. -/
theorem test_readFrameStart_after_the_last_tick :
    let t := after (.readFrameStart .p1 0x58#7)
      (streaming .p1 (.read 0x0200#16 0) (store.setSnap .p1 ⟨.held 17#32, some 0, false⟩))
    ((t.snaps.get .p1).state, (t.ifaces.get .p1).frame, (t.notes.get .p1).queue)
      = (.lapsed, .sending 50 ⟨.streaming .lapsed 0#32, 0, false⟩, [⟨.snapLapsed, 0#16, 17#32, .zero⟩]) := by
  decide +kernel

theorem test_readFrameEnd_frees_the_frame_snapshot :
    (after (.readFrameEnd .p2) (sending .p2 (.streaming .ok 20#32) 6 (.scan 0#16) (slotIn .p2 (.frame 20#32) store))).snaps.get .p2
      = ⟨.free, none, false⟩ := by decide +kernel

theorem test_stallTimerExpiry_discards_the_frame :
    let s := (holding .p1 [0x03#8] ready).setIface .p1 { (holding .p1 [0x03#8] ready).ifaces.get .p1 with stall := some 0 }
    ((after (.stallTimerExpiry .p1) s).ifaces.get .p1).frame = .idle := by decide +kernel

theorem test_dataByte_past_the_declared_length :
    ((after (.dataByteReceived .p1 (.byte 0x00#8)) (holding .p1 [0x20#8] ready)).ifaces.get .p1).bus = .notAcknowledged := by
  decide +kernel

theorem test_byteClockedOut_streams_the_counter :
    let t := after (.byteClockedOut .p2 (.byte true)) (sending .p2 (.streaming .ok 20#32) 9 (.read 0x0200#16 3) (slotIn .p2 (.frame 20#32) store))
    ((t.ifaces.get .p2).bus, (t.ifaces.get .p2).stream) = (.sent 0x0C#8, .read 0x0200#16 4) := by decide +kernel

/-- Table 8-1: an SCL edge inside a byte reloads the stall timer, and stores and sends nothing. -/
theorem test_edges_reload_the_stall_timer :
    let late := fun (s : State) => s.setIface .p1 { s.ifaces.get .p1 with stall := some 3 }
    let received := after (.dataByteReceived .p1 .edge) (late (holding .p1 [0x20#8] ready))
    let sent := after (.byteClockedOut .p1 .edge) (late (sending .p1 .buffered 2 .closed ready))
    ((received.ifaces.get .p1).stall, (received.ifaces.get .p1).frame) = (some 50, .receiving 50 [0x20#8])
    ∧ ((sent.ifaces.get .p1).stall, (sent.ifaces.get .p1).frame) = (some 50, .sending 50 ⟨.buffered, 2, false⟩) := by
  decide +kernel

/-- R187: the tick after an expiry waits for it. -/
theorem test_tick_waits_for_an_expiry :
    let s := ready.setTxn .p1 ⟨.opened, [], some 1, .none, .none⟩
    (after .tick (after .tick s) = after .tick s) ∧ ((after .tick s).txns.get .p1).idle = some 0 := by decide +kernel

theorem test_tick_counts :
    ((after .tick (opened .p1 [] ready)).txns.get .p1).idle = some 999 := by decide +kernel

theorem test_holdTimerExpiry_lapses :
    let t := after (.holdTimerExpiry .p1) (ready.setSnap .p1 ⟨.held 1#32, some 0, false⟩)
    ((t.snaps.get .p1).state, (t.notes.get .p1).queue) = (.lapsed, [⟨.snapLapsed, 0#16, 1#32, .zero⟩]) := by decide +kernel

theorem test_idleTimerExpiry_tells :
    let t := after (.idleTimerExpiry .p1) (ready.setTxn .p1 ⟨.opened, [], some 0, .none, .none⟩)
    ((t.txns.get .p1).outcome, (t.notes.get .p1).flags) = (.timedOut, 0x05#6) := by decide +kernel

theorem test_deviceReset_restores_the_configuration :
    ((after (.deviceReset .resetN) (ready.setIface .p1 { Iface.afterReset with config := ⟨0, 0, 10⟩ })).ifaces.get .p1).config
      = ⟨1000, 2000, 50⟩ := by decide +kernel

theorem test_deviceResetEnd_samples_the_straps :
    let t := after (.deviceResetEnd 0x5#3 0x9#4) State.reset
    (t.inReset, t.adr, t.priv, t.image.op) = (false, 0x5#3, 0x9#4, .poll .loadRead (some 400)) := by decide +kernel

/-! ### The commit engine -/

theorem test_take_of_a_changed_base :
    let s := { store with commitQueue := [.p1] }.setTxn .p1 ⟨.queued, [⟨0x0200#16, .deleted 14#32⟩], none, .none, .none⟩
    ((after .take s).txns.get .p1).outcome = .conflict 0x0200#16 .changed := by decide +kernel

theorem test_pageDigested_finishes_the_body :
    let s : State := { ready with
      pool := ⟨[(0, 0x31#8), (1, 0x32#8)], [(0, 1)], [1], ⟨1, 0, 0, 0⟩⟩
      engine := .digesting ⟨.p0, 1, 1, [⟨0x0100#16, [0], 2, 0xFFFF#16⟩], []⟩ }
    (after .pageDigested s).engine = .digesting ⟨.p0, 1, 1, [], [(0x0100#16, crc16 [0x31#8, 0x32#8])]⟩ := by decide +kernel

/-- Table 2-3: the publish at 21 of Table 2-2's body. -/
theorem test_publish_table_2_3 :
    let pool : Pool := ⟨[], [(0, 2), (1, 1), (2, 1), (3, 1), (4, 1)], [7, 8, 9, 5, 6], ⟨0, 1, 0, 0⟩⟩
    let s := { store with
      pool := pool
      engine := .digesting ⟨.p1, 1, 0, [], [(0x0340#16, 0x1234#16)]⟩ }.setTxn .p1
        ⟨.applying, [⟨0x0340#16, .written 20#32 ⟨40, [⟨0, false⟩, ⟨4, true⟩]⟩⟩], none, .none, .none⟩
    let t := after .publish s
    (t.g, t.pool.refs, t.pool.free, t.pool.stagedOwned.get .p1, chainOf t.directory 0x0340#16)
      = (21#32, [(0, 1), (4, 1)], [7, 8, 9, 5, 6, 1, 2, 3], 0, [⟨21#32, .blob attrs 40 [0, 4] 0x1234#16⟩]) := by decide +kernel

/-! ### The image store -/

/-- Table 10-14: the header of the example image. -/
theorem test_header_table_10_14 :
    (ImageHeader.mk 8#32 500#32 3 304).fields
      = [0x45#8, 0x4A#8, 0x43#8, 0x52#8, 0x01#8, 0x00#8, 0x00#8, 0x00#8, 0x08#8, 0x00#8, 0x00#8, 0x01#8, 0xF4#8,
         0x00#8, 0x03#8, 0x00#8, 0x00#8, 0x01#8, 0x30#8] := by decide +kernel

/-- Table 10-13: the entry of 0x0200, a COUNTER of value 12. -/
theorem test_entry_table_10_13 :
    imageEntry store.pool (0x0200#16, counter12)
      = [0x02#8, 0x00#8, 0x21#8, 0x02#8, 0x00#8, 0x04#8] ++ be16 (crc16 [0x00#8, 0x00#8, 0x00#8, 0x0C#8])
        ++ [0x00#8, 0x00#8, 0x00#8, 0x0C#8] := by decide +kernel

/-- A checkpoint of `store` under way with an operation. -/
def saving (stage : Stage) (op : FlashOp) : State := { store with
  slot4 := some 20#32
  image := { ready.image with checkpoint := some ⟨stage, .slot0, 0, 0⟩, op := op } }

theorem test_statusPollReady_sends_the_erase :
    (after (.statusPollReady none) (saving (.erasing 15) (.poll .erase (some 400)))).image.op
      = .erase 0x00F000 (some 400) := by decide +kernel

/-- R138, R146: each of the load's header reads begins with its own poll. -/
theorem test_statusPollReady_polls_for_each_header :
    let s0 := after (.deviceResetEnd 0#3 0#4) State.reset
    let s1 := after (.statusPollReady none) s0
    let s2 := after (.statusPollReady none) s1
    (s1.image.op, s2.image.op) = (.poll .loadRead (some 400), .loadRead)
    ∧ linkSends s1 = [[0x03#8, 0x00#8, 0x00#8, 0x00#8], [0x05#8]] ∧ linkSends s2 = [[0x03#8, 0x01#8, 0x00#8, 0x00#8]] := by
  decide +kernel

theorem test_statusPollTimeout_fails_the_checkpoint :
    (after .statusPollTimeout (saving (.erasing 15) (.poll .erase (some 0)))).image.last = some (.failed .eraseTimeout) := by
  decide +kernel

theorem test_eraseDone_begins_writing :
    (after (.eraseDone none) (saving (.erasing 15) (.erase 0x00F000 (some 1)))).image.checkpoint
      = some ⟨.writing 0 0#16, .slot0, 0, 0⟩ := by decide +kernel

theorem test_eraseTimerExpiry_fails_the_checkpoint :
    (after .eraseTimerExpiry (saving (.erasing 3) (.erase 0x003000 (some 0)))).image.last = some (.failed .eraseTimeout) := by
  decide +kernel

theorem test_programDone_reads_back :
    (after (.programDone none) (saving .sealing (.program 0x000000 [0x45#8] (some 1)))).image.op
      = .poll (.readback 0x000000 [0x45#8]) (some 400) := by decide +kernel

theorem test_programTimerExpiry_fails_the_checkpoint :
    (after .programTimerExpiry (saving .sealing (.program 0x000000 [0x45#8] (some 0)))).image.last
      = some (.failed .programTimeout) := by decide +kernel

theorem test_readbackDone_verifies :
    (after (.readbackDone (some [0x44#8])) (saving .sealing (.readback 0x000000 [0x45#8]))).image.last
      = some (.failed .verify) := by decide +kernel

/-- R138: read data is not sent before its poll has read not busy. -/
theorem test_readbackDone_waits_for_its_poll :
    let s := saving .sealing (.poll (.readback 0x000000 [0x45#8]) (some 400))
    after (.readbackDone none) s = s := by decide +kernel

/-- A load of an erased flash at a point of it. -/
def loadingAt (loader : Loader) (flash : Memory) : State := { ready with
  image := { Image.afterReset with loader := loader, op := .loadRead }
  flash := ⟨flash, none⟩ }

theorem test_device_reset_releases_the_link :
    linkReleased State.reset = true ∧ linkReleased (after (.deviceResetEnd 0#3 0#4) State.reset) = false := by
  decide +kernel

theorem test_loadHeadersRead_of_an_erased_flash :
    (after .loadHeadersRead (loadingAt .header1 [])).image.load = .empty .noImage := by decide +kernel

/-- The header and the entry of an image in slot 1 that holds the COUNTER of Table 10-13 alone. -/
def imageInSlot1 : Memory :=
  writeBlock 0xFF#8 (writeBlock 0xFF#8 [] 0x10000 (ImageHeader.mk 8#32 500#32 1 4).bytes) 0x10100
    (imageEntry store.pool (0x0200#16, counter12))

/-- The cursor at that entry. -/
def cursorInSlot1 : LoadCursor := ⟨.slot1, ⟨8#32, 500#32, 1, 4⟩, [], 0, 256, none, 0⟩

theorem test_loadEntryChecked_accepts :
    (after .loadEntryChecked (loadingAt (.checking cursorInSlot1) imageInSlot1)).image.loader = .installing cursorInSlot1 := by
  decide +kernel

/-- R147: an entry head that ends at the slot's end is polled for, one that would run past it is not. -/
theorem test_entry_heads_stay_in_the_slot :
    entryOp { cursorInSlot1 with offset := 65528 } = .poll .loadRead (some 400)
    ∧ entryOp { cursorInSlot1 with offset := 65529 } = .none := by decide +kernel

theorem test_loadEntryInstalled_at_generation_1 :
    let t := after .loadEntryInstalled (loadingAt (.installing cursorInSlot1) imageInSlot1)
    (t.directory, t.image.load, t.image.sequence)
      = ([⟨0x0200#16, [⟨1#32, counter12.content⟩]⟩], .loaded, 8#32) := by decide +kernel

/-! ### Coherent states, for the witnesses -/

/-- A publish about to happen while port 2 holds a snapshot: port 0 adds 5 to a COUNTER of value 12, port 1
watches it, and image slot 0 is current. -/
def busy : State := { ready with
  directory := [⟨0x0200#16, [⟨1#32, counter12.content⟩]⟩]
  snaps := ⟨Snap.afterReset, Snap.afterReset, ⟨.held 1#32, some 7, false⟩, Snap.afterReset⟩
  txns := ⟨⟨.applying, [⟨0x0200#16, .added 1#32 5⟩], none, .none, .none⟩,
    Context.afterReset, Context.afterReset, Context.afterReset⟩
  engine := .digesting ⟨.p0, 1, 0, [], []⟩
  notes := ⟨Notify.afterReset, { Notify.afterReset with watches := [0x0200#16] }, Notify.afterReset, Notify.afterReset⟩
  image := { ready.image with load := .loaded, current := some .slot0, sequence := 7#32 }
  pending := [.publish] }

/-- The invariants of a notification state, as one decidable test. -/
theorem notify_ok {n : Notify} (h : n.watches.length ≤ 16 ∧ n.watches.Nodup ∧ n.watches.all recordTag = true
    ∧ n.queue.length ≤ 8 ∧ (n.queue.map (fun e => (e.kind, e.tag))).Nodup ∧ n.lost ≤ 255
    ∧ (n.lost = 0 ↔ n.flags &&& flagOverflow = 0#6) ∧ (n.queue = [] ↔ n.flags &&& flagQueue = 0#6)
    ∧ (n.attnLow = true ↔ n.flags &&& n.mask ≠ 0#6)) : n.Ok :=
  ⟨h.1, h.2.1, List.all_eq_true.mp h.2.2.1, h.2.2.2.1, h.2.2.2.2.1, h.2.2.2.2.2.1, h.2.2.2.2.2.2.1, h.2.2.2.2.2.2.2.1, h.2.2.2.2.2.2.2.2⟩

theorem busy_notesOk : NotesOk busy := by
  have h : Notify.Ok Notify.afterReset := notify_ok (by decide)
  intro p
  cases p
  · exact h
  · show Notify.Ok { Notify.afterReset with watches := [0x0200#16] }
    exact notify_ok (by decide)
  · exact h
  · exact h

theorem busy_memoriesOk : MemoriesOk busy := ⟨rfl, rfl, rfl⟩

theorem config_afterReset_ok : PortConfig.Ok PortConfig.afterReset := ⟨by decide, by decide, by decide, by decide⟩

/-- A port with no frame open and reset configuration is in order when its timers run in their states. -/
theorem portOk_of_idle {p : Port} {s : State} (hi : s.ifaces.get p = Iface.afterReset)
    (hs : (s.snaps.get p).state = .free ∨ ∃ g, (s.snaps.get p).state = .held g)
    (hh : (s.snaps.get p).hold ≠ none → ∃ g, (s.snaps.get p).state = .held g)
    (hl : (s.snaps.get p).lapsePending = false) : PortOk p s where
  config := by rw [hi]; exact config_afterReset_ok
  idleStopped := fun _ => by rw [hi]; rfl
  buffer := fun limit bytes h => by rw [hi] at h; cases h
  receivingLimit := fun limit bytes h => by rw [hi] at h; cases h
  sendingLimit := fun limit f h => by rw [hi] at h; cases h
  source := fun limit f h => by rw [hi] at h; cases h
  view := fun limit f r v h => by rw [hi] at h; cases h
  frameSlot := fun g h => by rcases hs with hs | ⟨_, hs⟩ <;> rw [hs] at h <;> cases h
  holdHeld := hh
  lapseHeld := fun h => by rw [hl] at h; cases h

theorem busy_portsOk : PortsOk busy := by
  intro p
  cases p
  · exact portOk_of_idle rfl (.inl rfl) (fun h => absurd rfl h) rfl
  · exact portOk_of_idle rfl (.inl rfl) (fun h => absurd rfl h) rfl
  · exact portOk_of_idle rfl (.inr ⟨1#32, rfl⟩) (fun _ => ⟨1#32, rfl⟩) rfl
  · exact portOk_of_idle rfl (.inl rfl) (fun h => absurd rfl h) rfl

theorem context_afterReset_ok : Context.Ok Context.afterReset where
  room := by decide
  tagsDiffer := by decide
  tags := by decide
  noneEmpty := fun _ => rfl
  frozenFull := by decide
  idleOpen := by decide
  noOutcome := by decide

theorem busy_contextsOk : ContextsOk busy where
  contexts := by
    intro p
    cases p
    · exact ⟨by decide, by decide, by decide, by decide, by decide, by decide, by decide⟩
    all_goals exact context_afterReset_ok
  queueOnce := by decide
  queued := by intro p; cases p <;> decide
  idle := by intro h; cases h
  digesting := by
    intro c h p
    cases h
    cases p <;> decide +kernel
  quiet := by intro h; cases h
  resetLoading := by intro h; cases h

theorem busy_storeOk : StoreOk busy where
  tagsRise := by decide
  occupied := by decide
  gensFall := by decide
  noLoneTombstone := by
    intro d hd v hv
    rw [List.mem_singleton.mp hd] at hv
    cases hv
    rfl
  seen := by
    intro d hd
    rw [List.mem_singleton.mp hd]
    exact True.intro
  gPositive := by decide
  versionGens := by decide
  snapGens := by
    intro g hg
    have h : holdingGens busy = [1#32] := rfl
    rw [h, List.mem_singleton] at hg
    rw [hg]
    decide
  slotFour := rfl
  bases := by
    intro p i hi base hb
    cases p
    · rw [List.mem_singleton.mp hi] at hb ⊢
      cases hb
      decide
    all_goals cases hi
  gRoom := by intro c _; decide
  stillPasses := by intro c h; cases h; rfl
  entriesReserved := by intro c h; cases h; rfl
  slotsReserved := by intro c h; cases h; decide +kernel
  entryRoom := by decide +kernel
  slotRoom := by decide +kernel

/-- Pages are in order where no version and no staged body holds any. -/
theorem pagesOk_of_no_pages {s : State} (hp : s.pool = Pool.afterReset) (hv : ∀ d ∈ s.directory, ∀ v ∈ d.chain, v.pages = [])
    (hl : ∀ d ∈ s.directory, ∀ v ∈ d.chain, v.listOk)
    (hb : ∀ p, stagedBodies p s = [])
    (hc : ∀ d ∈ s.directory, ∀ v ∈ d.chain, v.isTombstone = false → v.crc = crc16 (v.body s.pool))
    (hd : ∀ c, s.engine = .digesting c → bodiesToDigest (s.txns.get c.port).intents = [] ∧ c.todo = [] ∧ c.done = []) :
    PagesOk s := by
  have hs : ∀ p, stagedPageLists p s = [] := by
    intro p
    have h := hb p
    simp only [stagedBodies, List.filterMap_eq_nil_iff] at h
    simp only [stagedPageLists, List.filterMap_eq_nil_iff]
    intro i hi
    rw [h i hi]; rfl
  have hx : ∀ x ∈ pageLists s, x.2 = [] := by
    intro x hx
    simp only [pageLists, hs, List.mem_append, versionPageLists, List.mem_flatMap, List.mem_map] at hx
    rcases hx with ⟨d, hd, v, hvd, rfl⟩ | ⟨_, _, h⟩
    · exact hv d hd v hvd
    · cases h
  have href : ∀ n, s.pool.ref n = 0 := by intro n; rw [hp]; rfl
  constructor
  case counts =>
    intro n
    have : (pageLists s).flatMap Prod.snd = [] := by simpa using fun a b h => hx (a, b) h
    rw [href, this]; rfl
  case freePages =>
    intro n
    rw [href, hp]
    simp [Pool.afterReset]
  case freeOnce =>
    rw [hp]
    simp only [Pool.afterReset]
    exact List.nodup_range
  case inPool => exact fun n _ => href n
  case versionLists => exact hl
  case bodyLists => intro p b h; rw [hb p] at h; cases h
  case ownedOnce => intro p b h; rw [hb p] at h; cases h
  case stagedOwned => intro p; rw [hb p, hp]; simp [Pool.afterReset]
  case versionTails => intro d hd v hvd h; exact absurd (hv d hd v hvd) h
  case bodyTails => intro p b h; rw [hb p] at h; cases h
  case oneRecord => intro x hxm y _ n hn; rw [hx x hxm] at hn; cases hn
  case quota => intro p; rw [hp]; simp [Pool.afterReset]
  case crcs => exact hc
  case digested =>
    intro c h
    obtain ⟨h1, h2, h3⟩ := hd c h
    exact ⟨[], [], h1, h3, h2⟩

theorem busy_pagesOk : PagesOk busy := by
  refine pagesOk_of_no_pages rfl ?_ ?_ ?_ ?_ ?_
  · intro d hd v hv
    rw [List.mem_singleton.mp hd] at hv
    rw [List.mem_singleton.mp hv]; rfl
  · intro d hd v hv
    rw [List.mem_singleton.mp hd] at hv
    rw [List.mem_singleton.mp hv]; exact True.intro
  · intro p; cases p <;> rfl
  · intro d hd v hv _
    rw [List.mem_singleton.mp hd] at hv
    rw [List.mem_singleton.mp hv]; rfl
  · intro c h; cases h; exact ⟨rfl, rfl, rfl⟩

theorem busy_imageOk : ImageOk busy where
  inReset := by intro h; cases h
  readyLoaded := fun _ => rfl
  loadingNoCheckpoint := by intro h; cases h
  noCurrentNoSequence := by intro h; cases h
  target := by intro c i h; cases h
  sector := by intro c k h; cases h
  unit := by intro c u q h; cases h
  opOwner := by decide +kernel
  opLoad := by intro h; exact absurd rfl h
  readQuiet := by intro h; cases h
  loadQuiet := fun _ => rfl
  headersOp := by rintro (h | h) <;> cases h
  notYetInstalled := by rintro (h | h | ⟨c, h⟩) <;> cases h
  entriesOp := by rintro c (h | h) <;> cases h
  runUnit := by intro addr data h; cases h
  opUnit := by intro data h; cases h
  totals := by intro c h; cases h
  runSpares := by intro run i h; cases h

theorem busy_coherent : Coherent busy :=
  ⟨busy_notesOk, busy_memoriesOk, busy_portsOk, busy_contextsOk, busy_storeOk, busy_pagesOk, busy_imageOk⟩

/-- An open write frame with at most its declared length keeps an idle port in order. -/
theorem coherent_holding {p : Port} {bytes : List Byte} {s : State} (h : Coherent s) (hi : (s.ifaces.get p).frame = .idle)
    (hb : bytes.length ≤ declaredLength bytes) : Coherent (holding p bytes s) where
  notes := h.notes
  memories := ⟨h.memories.1, h.memories.2, h.memories.3⟩
  ports := by
    intro q
    by_cases hq : q = p
    · subst hq
      have o := h.ports q
      have hg : (holding q bytes s).ifaces.get q
          = { s.ifaces.get q with frame := .receiving 50 bytes, stall := some 50 } := by simp [holding]
      have noFrame : ∀ g, (s.snaps.get q).state ≠ .frame g := by
        intro g hs
        obtain ⟨limit, f, r, hf, _⟩ := o.frameSlot g hs
        rw [hi] at hf
        cases hf
      constructor
      case config => rw [hg]; exact o.config
      case idleStopped => intro hf; rw [hg] at hf; cases hf
      case buffer => intro limit bs hf; rw [hg] at hf; cases hf; exact hb
      case receivingLimit => intro limit bs hf; rw [hg] at hf; cases hf; decide
      case sendingLimit => intro limit f hf; rw [hg] at hf; cases hf
      case source => intro limit f hf; rw [hg] at hf; cases hf
      case view => intro limit f r v hf; rw [hg] at hf; cases hf
      case frameSlot => intro g hs; exact absurd hs (noFrame g)
      case holdHeld => exact o.holdHeld
      case lapseHeld =>
        intro hl
        obtain ⟨_, _, limit, f, hf⟩ := o.lapseHeld hl
        rw [hi] at hf
        cases hf
    · have o := h.ports q
      have hg : (holding p bytes s).ifaces.get q = s.ifaces.get q := by simp [holding, hq]
      constructor
      case config => rw [hg]; exact o.config
      case idleStopped => rw [hg]; exact o.idleStopped
      case buffer => rw [hg]; exact o.buffer
      case receivingLimit => rw [hg]; exact o.receivingLimit
      case sendingLimit => rw [hg]; exact o.sendingLimit
      case source => rw [hg]; exact o.source
      case view => rw [hg]; exact o.view
      case frameSlot => rw [hg]; exact o.frameSlot
      case holdHeld => exact o.holdHeld
      case lapseHeld => rw [hg]; exact o.lapseHeld
  contexts := ⟨h.contexts.1, h.contexts.2, h.contexts.3, h.contexts.4, h.contexts.5, h.contexts.6, h.contexts.7⟩
  store := ⟨h.store.1, h.store.2, h.store.3, h.store.4, h.store.5, h.store.6, h.store.7, h.store.8, h.store.9, h.store.10,
    h.store.11, h.store.12, h.store.13, h.store.14, h.store.15, h.store.16⟩
  pages := ⟨h.pages.1, h.pages.2, h.pages.3, h.pages.4, h.pages.5, h.pages.6, h.pages.7, h.pages.8, h.pages.9, h.pages.10,
    h.pages.11, h.pages.12, h.pages.13, h.pages.14⟩
  image := ⟨h.image.1, h.image.2, h.image.3, h.image.4, h.image.5, h.image.6, h.image.7, h.image.8, h.image.9, h.image.10,
    h.image.11, h.image.12, h.image.13, h.image.14, h.image.15, h.image.16, h.image.17, h.image.18⟩

/-- A pool whose first `n` pages are held once each, every byte 0x00. -/
def poolOf (n : Nat) (owned : PortMap Nat) : Pool := ⟨[], (List.range n).map (fun k => (k, 1)), List.range' n (1024 - n), owned⟩

theorem cellRead_held (from' n m : Nat) :
    cellRead 0 ((List.range' from' n).map (fun k => (k, 1))) m = if from' ≤ m ∧ m < from' + n then 1 else 0 := by
  induction n generalizing from' with
  | zero => simp [cellRead]
  | succ n ih =>
    simp only [List.range'_succ, List.map_cons, cellRead, ih]
    split
    · split <;> omega
    · split <;> split <;> omega

theorem poolOf_ref (n : Nat) (owned : PortMap Nat) (m : Nat) : (poolOf n owned).ref m = if m < n then 1 else 0 := by
  have h := cellRead_held 0 n m
  rw [← List.range_eq_range'] at h
  simpa [poolOf, Pool.ref] using h

theorem poolOf_byte (n : Nat) (owned : PortMap Nat) (pages : List PageNo) (k : Nat) : (poolOf n owned).bodyByte pages k = 0x00#8 := by
  simp only [Pool.bodyByte]
  split <;> rfl

/-- Pages are in order where the lists, end to end, hold the first `n` pages once each, in order. -/
theorem pagesOk_of_poolOf {s : State} {n : Nat} {owned : PortMap Nat} (hn : n ≤ 1024) (hp : s.pool = poolOf n owned)
    (hl : (pageLists s).flatMap Prod.snd = List.range n) (he : s.engine = .idle)
    (hv : ∀ d ∈ s.directory, ∀ v ∈ d.chain, v.listOk)
    (hb : ∀ p, ∀ b ∈ stagedBodies p s, b.length ≤ 2048 ∧ b.pages.length = pagesFor b.length)
    (hs : ∀ p, owned.get p = ((stagedBodies p s).map StagedBody.ownedCount).sum ∧ owned.get p ≤ 256)
    (hc : ∀ d ∈ s.directory, ∀ v ∈ d.chain, v.isTombstone = false → v.crc = crc16 (v.body s.pool)) : PagesOk s := by
  have ref : ∀ m : Nat, s.pool.ref m = if m < n then 1 else 0 := by rw [hp]; exact poolOf_ref n owned
  have once : ((pageLists s).flatMap Prod.snd).Nodup := by rw [hl]; exact List.nodup_range
  have listed : ∀ p, ∀ b ∈ stagedBodies p s, ∃ x ∈ pageLists s, x.2 = b.pageNos := by
    intro p b h
    simp only [stagedBodies, List.mem_filterMap] at h
    obtain ⟨i, hi, hib⟩ := h
    refine ⟨(i.tag, b.pageNos), ?_, rfl⟩
    simp only [pageLists, List.mem_append, List.mem_flatMap]
    refine .inr ⟨p, by cases p <;> decide, ?_⟩
    simp only [stagedPageLists, List.mem_filterMap]
    exact ⟨i, hi, by rw [hib]; rfl⟩
  have below : ∀ x ∈ pageLists s, ∀ m ∈ x.2, m < n := by
    intro x hx m hm
    have : m ∈ (pageLists s).flatMap Prod.snd := List.mem_flatMap.mpr ⟨x, hx, hm⟩
    rw [hl] at this
    exact List.mem_range.mp this
  rw [List.nodup_flatMap] at once
  constructor
  case counts =>
    intro m
    rw [ref, hl]
    split
    · exact (List.count_eq_one_of_mem List.nodup_range (List.mem_range.mpr ‹_›)).symm
    · exact (List.count_eq_zero_of_not_mem (fun h => absurd (List.mem_range.mp h) ‹_›)).symm
  case freePages =>
    intro (m : Nat)
    rw [ref, hp]
    show m ∈ List.range' n (1024 - n) ↔ m < 1024 ∧ _
    rw [List.mem_range'_1]
    split <;> omega
  case freeOnce => rw [hp]; exact List.nodup_range'
  case inPool =>
    intro (m : Nat) (hm : 1024 ≤ m)
    rw [ref]
    split <;> omega
  case versionLists => exact hv
  case bodyLists =>
    intro p b h
    obtain ⟨x, hx, hxb⟩ := listed p b h
    exact ⟨(hb p b h).1, (hb p b h).2, hxb ▸ once.1 x hx⟩
  case ownedOnce =>
    intro p b h y hy _
    obtain ⟨x, hx, hxb⟩ := listed p b h
    rw [ref, if_pos (below x hx y.page (hxb ▸ List.mem_map_of_mem hy))]
  case stagedOwned => intro p; rw [hp]; exact (hs p).1
  case versionTails => intro d _ v _ _ k _ _; rw [hp]; exact poolOf_byte n owned _ k
  case bodyTails => intro p b _ k _ _; rw [hp]; exact poolOf_byte n owned _ k
  case oneRecord =>
    intro x hx y hy m hmx hmy
    by_contra hne
    have hxy : x ≠ y := fun h => hne (by rw [h])
    have symm : Std.Symm (Function.onFun List.Disjoint (Prod.snd : Tag × List PageNo → List PageNo)) :=
      ⟨fun _ _ h => h.symm⟩
    exact once.2.forall hx hy hxy hmx hmy
  case quota => intro p; rw [hp]; exact (hs p).2
  case crcs => exact hc
  case digested => intro c h; rw [he] at h; cases h

/-- An open transaction of port 0 that creates a BLOB of one byte, in page 0. -/
def staged : State := opened .p0 [⟨0x0100#16, .created attrs (.blob (some ⟨1, [⟨0, true⟩]⟩))⟩]
  { ready with pool := poolOf 1 ⟨1, 0, 0, 0⟩ }

theorem staged_pagesOk : PagesOk staged := by
  refine pagesOk_of_poolOf (n := 1) (by decide) rfl rfl rfl (fun d hd => nomatch hd) ?_ ?_ (fun d hd => nomatch hd)
  · intro p b h
    cases p
    case p0 => rw [List.mem_singleton.mp h]; decide
    all_goals cases h
  · intro p; cases p <;> exact ⟨rfl, by decide⟩

/-- A BLOB of 33 bytes 0x00 in pages 0 and 1, published at 1, and an open transaction of port 1, its writer. -/
def touched : State := opened .p1 [] { ready with
  directory := [⟨0x0340#16, [⟨1#32, .blob attrs 33 [0, 1] (crc16 (List.replicate 33 0x00#8))⟩]⟩]
  pool := poolOf 2 (PortMap.same 0) }

theorem touched_pagesOk : PagesOk touched := by
  refine pagesOk_of_poolOf (n := 2) (by decide) rfl rfl rfl ?_ ?_ ?_ ?_
  · intro d hd v hv
    rw [List.mem_singleton.mp hd] at hv
    rw [List.mem_singleton.mp hv]
    exact ⟨by decide, by decide, by decide⟩
  · intro p b h; cases p <;> cases h
  · intro p; cases p <;> exact ⟨rfl, by decide⟩
  · intro d hd v hv _
    rw [List.mem_singleton.mp hd] at hv
    rw [List.mem_singleton.mp hv]
    decide +kernel

theorem touched_memoriesOk : MemoriesOk touched := ⟨rfl, rfl, rfl⟩

/-- The first `n` of 16 bodies of 2048 bytes staged, four to a port, and a CREATED BLOB of port 0 with no body. -/
def hoard (n : Nat) : State :=
  let blob := fun (k : Nat) => Intent.mk (BitVec.ofNat 16 (k + 1)) (.created attrs (.blob (some
    ⟨2048, (List.range' (64 * k) 64).map (fun m => ⟨m, true⟩)⟩)))
  let context := fun (intents : List Intent) => Context.mk .opened intents none .none .none
  let staged := fun (j : Nat) => ((List.range' (4 * j) 4).filter (fun k => decide (k < n))).map blob
  let owned := fun (j : Nat) => 64 * ((List.range' (4 * j) 4).countP (fun k => decide (k < n)))
  { ready with
    txns := ⟨context (staged 0 ++ [⟨0x0100#16, .created attrs (.blob none)⟩]), context (staged 1), context (staged 2),
      context (staged 3)⟩
    pool := poolOf (64 * n) ⟨owned 0, owned 1, owned 2, owned 3⟩ }

theorem hoard_pagesOk {n : Nat} (hn : n = 4 ∨ n = 16) : PagesOk (hoard n) := by
  have hl : (pageLists (hoard n)).flatMap Prod.snd = List.range (64 * n) := by rcases hn with rfl | rfl <;> decide +kernel
  have hb : ∀ p, (stagedBodies p (hoard n)).all (fun b => decide (b.length ≤ 2048) && b.pages.length == pagesFor b.length) = true := by
    rcases hn with rfl | rfl <;> (intro p; cases p <;> decide +kernel)
  refine pagesOk_of_poolOf (by omega) rfl hl rfl (fun d hd => nomatch hd) ?_ ?_ (fun d hd => nomatch hd)
  · intro p b h
    simpa using List.all_eq_true.mp (hb p) b h
  · intro p
    rcases hn with rfl | rfl <;> cases p <;> exact ⟨by decide +kernel, by decide +kernel⟩

theorem hoard_memoriesOk {n : Nat} (hn : n = 4 ∨ n = 16) : MemoriesOk (hoard n) := by
  rcases hn with rfl | rfl <;> exact ⟨rfl, by decide +kernel, rfl⟩

/-! ### Witnesses: the machine as a whole -/

theorem witness_StepRunsFrontCommand : State.reset.pending = [] := rfl

/-- NotificationStaysInOrder, MemoriesStayCanonical, PortsStayInOrder, ContextsStayInOrder, StoreStaysInOrder,
PagesStayConserved, ImageControllerStaysInOrder, InvariantsBoundTheStore: a publish from a coherent state. -/
theorem witness_steps_from_coherent : Coherent busy ∧ ∃ t, step busy = .next t := ⟨busy_coherent, _, rfl⟩

/-- The held view at 1 is a counter's version, and the command publishes another. -/
theorem witness_HeldViewsStayFixed : Coherent busy ∧ busy.image.device = .ready ∧ (∀ cause, Instr.publish ≠ .deviceReset cause)
    ∧ ∃ t, exec .publish busy = .next t ∧ 1#32 ∈ holdingGens busy ∧ 1#32 ∈ holdingGens t
      ∧ visible busy.directory 0x0200#16 1#32 = some ⟨1#32, counter12.content⟩ :=
  ⟨busy_coherent, rfl, (fun _ h => nomatch h), after .publish busy, rfl, List.mem_singleton.mpr rfl, List.mem_singleton.mpr rfl, rfl⟩

theorem witness_CurrentSlotIsNeverWritten : Coherent busy ∧ (∃ t, exec (.deviceReset (.power none)) busy = .next t)
    ∧ busy.image.current = some .slot0 ∧ ImageSlot.slot0.holds 0 ∧ ImageSlot.slot0.holds 65535 :=
  ⟨busy_coherent, ⟨_, rfl⟩, rfl, ⟨by decide, by decide⟩, ⟨by decide, by decide⟩⟩

/-! ### Witnesses: device reset and the time base -/

/-- Nothing running; an erase and a program cut off over an array in canonical form. -/
theorem witness_DeviceResetLeavesResetValues :
    ready.flash.running = none ∧ ResetCause.power (some []) ≠ .resetN
    ∧ (let cut := fun (run : FlashRun) => ({ ready with flash := ⟨[(4096, 0x0F#8), (8192, 0x01#8)], some run⟩ } : State)
      (∀ run, Memory.wf 0xFF#8 (cut run).flash.mem = true) ∧ (cut (.erase 4096)).flash.running = some (.erase 4096)
      ∧ ∃ data, (cut (.program 4096 [0xF1#8])).flash.running = some (.program 4096 data)) :=
  ⟨rfl, by decide, fun _ => rfl, rfl, _, rfl⟩

theorem witness_OnlyItsEndLeavesDeviceReset :
    ((∀ cause, Instr.tick ≠ .deviceReset cause) ∧ ∀ adr priv, Instr.tick ≠ .deviceResetEnd adr priv)
    ∧ State.reset.inReset = true ∧ ready.inReset = false :=
  ⟨⟨(fun _ h => nomatch h), (fun _ _ h => nomatch h)⟩, rfl, rfl⟩

/-- Expiries still to be taken, of each kind of owner, and none with every kind of operation in progress. -/
theorem witness_TickCountsEveryTimer :
    let waits := fun (s : State) =>
      (∃ p, (s.ifaces.get p).stall = some 0 ∨ (s.snaps.get p).hold = some 0 ∨ (s.txns.get p).idle = some 0)
        ∨ (∃ next, s.image.op = .poll next (some 0)) ∨ (∃ addr, s.image.op = .erase addr (some 0))
        ∨ ∃ addr data, s.image.op = .program addr data (some 0)
    State.reset.inReset = true
    ∧ (waits (ready.setTxn .p1 ⟨.opened, [], some 0, .none, .none⟩) ∧ waits (saving (.erasing 0) (.poll .erase (some 0)))
      ∧ waits (saving (.erasing 0) (.erase 0 (some 0))) ∧ waits (saving .sealing (.program 0 [0x45#8] (some 0))))
    ∧ (∀ op : FlashOp, op.timer.due = false → (saving .sealing op).inReset = false ∧ ¬ waits (saving .sealing op)
      ∧ (saving .sealing op).image.op = op)
    ∧ [FlashOp.poll .erase (some 400), .erase 0 (some 400), .program 0 [0x45#8] (some 10), .none, .loadRead,
        .readback 0 [0x45#8]].all (fun op => !op.timer.due) = true := by
  refine ⟨rfl, ⟨.inl ⟨.p1, .inr (.inr rfl)⟩, .inr (.inl ⟨_, rfl⟩), .inr (.inr (.inl ⟨_, rfl⟩)), .inr (.inr (.inr ⟨_, _, rfl⟩))⟩,
    fun op h => ⟨rfl, ?_, rfl⟩, by decide⟩
  rintro (⟨p, hp⟩ | ⟨_, e⟩ | ⟨_, e⟩ | ⟨_, _, e⟩)
  · cases p <;> rcases hp with e | e | e <;> cases e
  all_goals
    have e : op = _ := e
    rw [e] at h
    cases h

/-! ### Witnesses: frames on the bus -/

theorem witness_StartAnswersOwnAddressOnly :
    ((State.reset.ifaces.get .p0).frame = .idle ∧ State.reset.inReset = true)
    ∧ ((ready.ifaces.get .p0).frame = .idle ∧ ready.inReset = false ∧ (0x59#7).toNat ≠ 0x58 + ready.adr.toNat)
    ∧ (0x5F#7).toNat = 0x58 + ({ ready with adr := 7#3 } : State).adr.toNat :=
  ⟨⟨rfl, rfl⟩, ⟨rfl, rfl, by decide⟩, by decide⟩

theorem witness_ReadFrameStartFixesItsSource (stream : Stream) (slot : SlotState) :
    let s := streaming .p1 stream (slotIn .p1 slot ready)
    s.inReset = false ∧ (s.ifaces.get .p1).frame = .idle ∧ (0x58#7).toNat = 0x58 + s.adr.toNat
      ∧ (s.ifaces.get .p1).stream = stream ∧ (s.snaps.get .p1).state = slot ∧ (s.snaps.get .p1).hold ≠ some 0 :=
  ⟨rfl, rfl, rfl, rfl, rfl, fun h => nomatch h⟩

/-- A hold timer at 0. -/
theorem witness_ReadFrameStartFixesItsSource_due (stream : Stream) :
    let s := streaming .p1 stream (ready.setSnap .p1 ⟨.held 1#32, some 0, false⟩)
    s.inReset = false ∧ (s.ifaces.get .p1).frame = .idle ∧ (0x58#7).toNat = 0x58 + s.adr.toNat
      ∧ (s.ifaces.get .p1).stream = stream ∧ (s.snaps.get .p1).state = .held 1#32 ∧ (s.snaps.get .p1).hold = some 0 :=
  ⟨rfl, rfl, rfl, rfl, rfl, rfl⟩

/-- No visible version, a length at the offset and above it; a directory in order with a visible record at the position,
and one with none. -/
theorem witness_ReadFrameStartFixesItsSource_results :
    visible store.directory 0x0500#16 20#32 = none ∧ visible store.directory 0x0200#16 20#32 = some counter12
    ∧ (counter12.length ≤ 4 ∧ 3 < counter12.length)
    ∧ (store.directory.map DirSlot.tag).Pairwise (· < ·)
    ∧ (∃ tag, (0x0340#16 : Tag) ≤ tag ∧ visible store.directory tag 20#32 ≠ none)
    ∧ (ready.directory.map DirSlot.tag).Pairwise (· < ·)
    ∧ ¬ ∃ tag, (0x0000#16 : Tag) ≤ tag ∧ visible ready.directory tag 1#32 ≠ none :=
  ⟨rfl, rfl, ⟨by decide, by decide⟩, by decide +kernel, ⟨0x0340#16, by decide, by decide +kernel⟩, List.Pairwise.nil,
    fun ⟨_, _, h⟩ => h rfl⟩

theorem witness_StartEndsTheOpenFrameFirst :
    (∃ limit f, ((sending .p0 .buffered 0 .closed ready).ifaces.get .p0).frame = .sending limit f)
    ∧ frameHolds .p0 [] (holding .p0 [] ready)
    ∧ (frameHolds .p0 [0x05#8, 0x00#8] (holding .p0 [0x05#8, 0x00#8] ready) ∧ requestOfCode 0x05#8 = none)
    ∧ frameHolds .p0 [requestCode .beginTxn] (holding .p0 [requestCode .beginTxn] ready)
    ∧ ready.inReset = false :=
  ⟨⟨50, _, rfl⟩, frameHolds_holding _ _ _, ⟨frameHolds_holding _ _ _, by decide⟩, frameHolds_holding _ _ _, rfl⟩

/-- A frame one byte short of STAT's declared length, one at it, and WRITE's 70 bytes with surplus behind. -/
theorem witness_DataBytesAreStoredToTheDeclaredLength :
    ((holding .p0 [0x12#8, 0x00#8] ready).ifaces.get .p0).frame = .receiving 50 [0x12#8, 0x00#8]
    ∧ [0x12#8, 0x00#8].length < declaredLength [0x12#8, 0x00#8]
    ∧ declaredLength [0x12#8, 0x00#8, 0x01#8] ≤ [0x12#8, 0x00#8, 0x01#8].length
    ∧ ((holding .p0 [] ready).ifaces.get .p0).frame = .receiving 50 [] ∧ (ready.ifaces.get .p0).frame = .idle
    ∧ let bytes := [0x22#8, 0x00#8, 0x01#8, 0x00#8, 0x00#8, 0x40#8] ++ List.replicate 64 0x00#8
      bytes.length = declaredLength bytes :=
  ⟨rfl, by decide, by decide, rfl, rfl, by decide +kernel⟩

/-- STAT with one byte missing; STAT complete while LOADING; a code that names no request; no byte. -/
theorem witness_UntakenFramesChangeOnlyTheReply :
    (frameHolds .p0 [requestCode .stat, 0x00#8] (holding .p0 [requestCode .stat, 0x00#8] ready)
      ∧ [0x00#8].length + 1 < declaredLength [requestCode .stat, 0x00#8])
    ∧ (declaredLength [requestCode .stat, 0x00#8, 0x01#8] ≤ [0x00#8, 0x01#8].length + 1
      ∧ ({ ready with image := Image.afterReset } : State).image.device = .loading ∧ Request.stat ≠ .deviceStatus)
    ∧ (∀ r, requestCode r ≠ 0x05#8)
    ∧ frameHolds .p0 [] (holding .p0 [] ready) :=
  ⟨⟨frameHolds_holding _ _ _, by decide⟩, ⟨by decide, rfl, by decide⟩, by intro r; cases r <;> decide, frameHolds_holding _ _ _⟩

/-- A silent frame; a buffered one; a streaming header's last byte and the byte behind it; a body's last byte
and the one behind it; the last byte of a SCAN entry; a SCAN and a READ with nothing to send. -/
theorem witness_BytesClockedOutFollowTheSource :
    let live := slotIn .p2 (.frame 20#32) store
    let reading := sending .p2 (.streaming .ok 20#32) 6 (.read 0x0200#16 3) live
    let ended := sending .p2 (.streaming .ok 20#32) 6 (.read 0x0200#16 4) live
    let scanning := sending .p2 (.streaming .ok 20#32) 17 (.scan 0x0200#16) live
    let scanned := sending .p2 (.streaming .ok 20#32) 18 (.scan 0x0341#16) live
    (((ready.setIface .p2 { ready.ifaces.get .p2 with frame := .sending 50 ⟨.buffered, 3, true⟩ }).ifaces.get .p2).frame
      = .sending 50 ⟨.buffered, 3, true⟩)
    ∧ ((sending .p2 .buffered 5 .closed ready).ifaces.get .p2).frame = .sending 50 ⟨.buffered, 5, false⟩
    ∧ ((reading.ifaces.get .p2).frame = .sending 50 ⟨.streaming .ok 20#32, 6, false⟩
      ∧ (reading.ifaces.get .p2).stream = .read 0x0200#16 3
      ∧ visible reading.directory 0x0200#16 20#32 = some counter12 ∧ 3 < counter12.length)
    ∧ (visible ended.directory 0x0200#16 20#32 = some counter12 ∧ counter12.length ≤ 4)
    ∧ (nextVisible scanning.directory 20#32 0x0200#16 = some (0x0200#16, counter12)
      ∧ (∃ head, counter12.head? 0x0200#16 = some head) ∧ (17 - 6) % 12 = 11)
    ∧ nextVisible scanned.directory 20#32 0x0341#16 = none
    ∧ (store.directory.map DirSlot.tag).Pairwise (· < ·) :=
  ⟨rfl, rfl, ⟨rfl, rfl, rfl, by decide⟩, ⟨rfl, by decide⟩, ⟨rfl, ⟨_, rfl⟩, rfl⟩, rfl, by decide +kernel⟩

theorem witness_ReadFrameEndDealsWithTheSlot (x : Snap) :
    let s := (sending .p1 .buffered 0 .closed ready).setSnap .p1 x
    (∃ limit f, (s.ifaces.get .p1).frame = .sending limit f) ∧ s.snaps.get .p1 = x :=
  ⟨⟨50, _, rfl⟩, rfl⟩

theorem witness_StallExpiryAbandonsTheFrame :
    let due := fun (frame : Frame) => ready.setIface .p1 { ready.ifaces.get .p1 with frame := frame, stall := some 0 }
    (((due (.receiving 50 [0x12#8])).ifaces.get .p1).stall = some 0 ∧ frameHolds .p1 [0x12#8] (due (.receiving 50 [0x12#8])))
    ∧ (∃ limit f, ((due (.sending 50 ⟨.buffered, 0, false⟩)).ifaces.get .p1).frame = .sending limit f)
    ∧ ((holding .p1 [] ready).ifaces.get .p1).stall ≠ some 0 :=
  ⟨⟨rfl, 50, rfl⟩, ⟨50, _, rfl⟩, by decide⟩

/-! ### Witnesses: CONFIGURE, DEVICE_STATUS, PORT_RESET -/

theorem ready_notes_ok (p : Port) : (ready.notes.get p).Ok := by
  have h : Notify.Ok Notify.afterReset := notify_ok (by decide)
  cases p <;> exact h

/-- The largest values in range, and each field just out of it. -/
theorem witness_ConfigureSetsAndDeviceStatusReports :
    let bytes := fun (idle hold : BitVec 16) (stall mask : Byte) => 0x02#8 :: (be16 idle ++ be16 hold ++ [stall, mask])
    let inRange := fun (idle hold : BitVec 16) (stall mask : Byte) =>
      idle.toNat ≤ 60000 ∧ hold.toNat ≤ 60000 ∧ 10 ≤ stall.toNat ∧ stall.toNat ≤ 250 ∧ mask.toNat < 64
    (∀ a b c d, readyWith .p0 (bytes a b c d) (holding .p0 (bytes a b c d) ready)
      ∧ ((holding .p0 (bytes a b c d) ready).notes.get .p0).Ok)
    ∧ inRange 0xEA60#16 0xEA60#16 0xFA#8 0x3F#8 ∧ inRange 0x0000#16 0x0000#16 0x0A#8 0x00#8
    ∧ ¬ inRange 0xEA61#16 0x0000#16 0x0A#8 0x00#8 ∧ ¬ inRange 0x0000#16 0xEA61#16 0x0A#8 0x00#8
    ∧ ¬ inRange 0x0000#16 0x0000#16 0x09#8 0x00#8 ∧ ¬ inRange 0x0000#16 0x0000#16 0xFB#8 0x00#8
    ∧ ¬ inRange 0x0000#16 0x0000#16 0x0A#8 0x40#8
    ∧ frameHolds .p0 [0x01#8] (holding .p0 [0x01#8] State.reset) :=
  ⟨fun _ _ _ _ => ⟨readyWith_holding rfl, ready_notes_ok .p0⟩, by decide, by decide, by decide, by decide, by decide, by decide,
    by decide, frameHolds_holding _ _ _⟩

/-- Port 0's transaction is APPLYING and port 2's slot is HELD; neither is so for port 1. -/
theorem witness_PortResetClearsItsPort :
    (∀ p, Coherent (holding p [0x03#8] busy) ∧ readyWith p [0x03#8] (holding p [0x03#8] busy))
    ∧ (busy.txns.get .p0).state = .applying ∧ (busy.snaps.get .p2).state = .held 1#32
    ∧ (busy.txns.get .p1).state = .none ∧ ready.engine = .idle :=
  ⟨fun p => ⟨coherent_holding busy_coherent (by cases p <;> rfl) (by decide), readyWith_holding rfl⟩, rfl, rfl, rfl, rfl⟩

/-! ### Witnesses: snapshots and reading -/

theorem witness_SnapOpenBindsAndSnapCloseFrees (x : SlotState) :
    (readyWith .p3 [0x10#8] (holding .p3 [0x10#8] (slotIn .p3 x store))
      ∧ ((holding .p3 [0x10#8] (slotIn .p3 x store)).snaps.get .p3).state = x)
    ∧ readyWith .p3 [0x11#8] (holding .p3 [0x11#8] (slotIn .p3 x store)) :=
  ⟨⟨readyWith_holding rfl, rfl⟩, readyWith_holding rfl⟩

/-- A chain whose older version no snapshot sees, and a commit in progress. -/
theorem witness_ReleaseKeepsExactlyTheSeenVersions :
    (store.directory.map DirSlot.tag).Pairwise (· < ·) ∧ store.engine = .idle
    ∧ (∃ d ∈ store.directory, ∃ newest older, d.chain = newest :: older ∧ newest.isTombstone = true)
    ∧ (∀ d ∈ store.directory, d.tag ≠ 0x0001#16) ∧ (∃ c, busy.engine = .digesting c)
    ∧ (cellsWf 0 store.pool.refs = true ∧ store.pool.ref 3 = 1 ∧ store.pool.ref 4 = 0)
    ∧ (IntentOp.deleted 1#32).body? = none ∧ (IntentOp.written 1#32 body27).body? = some body27 := by
  refine ⟨by decide +kernel, rfl, ⟨_, List.mem_cons_of_mem _ (List.mem_cons_of_mem _ List.mem_cons_self), _, _, rfl, rfl⟩, ?_,
    ⟨_, rfl⟩, ⟨by decide, rfl, rfl⟩, rfl, rfl⟩
  intro d hd
  simp only [store, List.mem_cons, List.not_mem_nil, or_false] at hd
  rcases hd with rfl | rfl | rfl <;> decide

/-- The two refused tags and the two outermost record tags; a BLOB, a COUNTER and no record. -/
theorem witness_StatAnswersFromTheView :
    (∀ tag x, readyWith .p3 (0x12#8 :: be16 tag) (holding .p3 (0x12#8 :: be16 tag) (slotIn .p3 x store))
      ∧ ((holding .p3 (0x12#8 :: be16 tag) (slotIn .p3 x store)).snaps.get .p3).state = x)
    ∧ ((0x0001#16 ≠ 0x0000#16 ∧ 0x0001#16 ≠ 0xFFFF#16) ∧ visible store.directory 0x0001#16 20#32 = none)
    ∧ ((0xFFFE#16 ≠ 0x0000#16 ∧ 0xFFFE#16 ≠ 0xFFFF#16) ∧ visible store.directory 0xFFFE#16 20#32 = none)
    ∧ visible store.directory 0x0340#16 20#32 = some ⟨20#32, .blob attrs 100 [0, 1, 2, 3] 0x0000#16⟩
    ∧ visible store.directory 0x0340#16 19#32 = none
    ∧ visible store.directory 0x0200#16 15#32 = some ⟨15#32, .counter attrs 12#32 (crc16 (be32 12#32))⟩ :=
  ⟨fun _ _ => ⟨readyWith_holding rfl, rfl⟩, ⟨⟨by decide, by decide⟩, rfl⟩, ⟨⟨by decide, by decide⟩, rfl⟩, rfl, rfl, rfl⟩

theorem witness_ReadAndScanOpenTheirStream (tag : Tag) (offset : BitVec 16) :
    readyWith .p2 (0x13#8 :: (be16 tag ++ be16 offset)) (holding .p2 (0x13#8 :: (be16 tag ++ be16 offset)) ready)
    ∧ readyWith .p2 (0x14#8 :: be16 tag) (holding .p2 (0x14#8 :: be16 tag) ready)
    ∧ 0x0001#16 ≠ 0x0000#16 ∧ 0xFFFE#16 ≠ 0xFFFF#16 :=
  ⟨readyWith_holding rfl, readyWith_holding rfl, by decide, by decide⟩

theorem witness_HoldExpiryLapsesOrDefers :
    let held := fun (t : Timer) (s : State) => s.setSnap .p1 ⟨.held 1#32, t, false⟩
    (((held (some 0) ready).snaps.get .p1).state = .held 1#32 ∧ ((held (some 0) ready).snaps.get .p1).hold = some 0
      ∧ ∀ limit f, ((held (some 0) ready).ifaces.get .p1).frame ≠ .sending limit f)
    ∧ (∃ limit f, ((held (some 0) (sending .p1 .buffered 0 .closed ready)).ifaces.get .p1).frame = .sending limit f)
    ∧ ((held (some 1) ready).snaps.get .p1).hold ≠ some 0 :=
  ⟨⟨rfl, rfl, fun _ _ h => nomatch h⟩, ⟨50, _, rfl⟩, by decide⟩

/-! ### Witnesses: transactions -/

/-- A context in any state. -/
def inState (p : Port) (x : CtxState) (intents : List Intent) (s : State) : State := s.setTxn p ⟨x, intents, none, .none, .none⟩

/-- An intent list of `n` entries, tags 1 to `n`. -/
def intentsOf (n : Nat) : List Intent := (List.range n).map (fun k => ⟨BitVec.ofNat 16 (k + 1), .created attrs (.counter 0)⟩)

theorem witness_BeginOpensAndStagingNeedsOpen (x : CtxState) :
    (readyWith .p0 [0x20#8] (holding .p0 [0x20#8] (inState .p0 x [] ready))
      ∧ ((holding .p0 [0x20#8] (inState .p0 x [] ready)).txns.get .p0).state = x)
    ∧ (Request.delete ∈ [Request.create, .write, .resize, .add, .delete]
      ∧ readyWith .p0 (requestCode .delete :: [0x00#8, 0x00#8]) (holding .p0 (requestCode .delete :: [0x00#8, 0x00#8]) ready)
      ∧ declaredLength (requestCode .delete :: [0x00#8, 0x00#8]) ≤ [0x00#8, 0x00#8].length + 1) :=
  ⟨⟨readyWith_holding rfl, rfl⟩, by decide, readyWith_holding rfl, by decide⟩

/-- Fields at and past their ends; an entry that is DELETED and one that is not; 15 and 16 entries; a live
record, a deleted one and none. -/
theorem witness_CreateAppendsACreatedIntent :
    let bytes := fun (tag : Tag) (kind writers persist : Byte) => 0x21#8 :: (be16 tag ++ [kind, writers, persist])
    let fieldsOk := fun (kind writers persist : Byte) =>
      (kind = 0x01#8 ∨ kind = 0x02#8) ∧ writers.toNat < 16 ∧ (persist = 0x01#8 ∨ persist = 0x02#8)
    (∀ t k w q intents, readyWith .p0 (bytes t k w q) (holding .p0 (bytes t k w q) (opened .p0 intents store))
      ∧ ((holding .p0 (bytes t k w q) (opened .p0 intents store)).txns.get .p0).state = .opened
      ∧ ((holding .p0 (bytes t k w q) (opened .p0 intents store)).txns.get .p0).intents = intents)
    ∧ (fieldsOk 0x01#8 0x0F#8 0x02#8 ∧ fieldsOk 0x02#8 0x00#8 0x01#8)
    ∧ (¬ fieldsOk 0x00#8 0x0F#8 0x02#8 ∧ ¬ fieldsOk 0x03#8 0x0F#8 0x02#8 ∧ ¬ fieldsOk 0x01#8 0x10#8 0x02#8
      ∧ ¬ fieldsOk 0x01#8 0x0F#8 0x00#8 ∧ ¬ fieldsOk 0x01#8 0x0F#8 0x03#8)
    ∧ (∃ i, findIntent [⟨0x0200#16, .deleted 15#32⟩] 0x0200#16 = some i ∧ ∃ base, i.op = .deleted base)
    ∧ (∃ i, findIntent (intentsOf 16) 0x0010#16 = some i ∧ ∀ base, i.op ≠ .deleted base)
    ∧ (findIntent (intentsOf 16) 0x0011#16 = none ∧ 16 ≤ (intentsOf 16).length)
    ∧ (findIntent (intentsOf 15) 0x0200#16 = none ∧ (intentsOf 15).length < 16
      ∧ ∃ v, (chainOf store.directory 0x0200#16).head? = some v ∧ v.isTombstone = false)
    ∧ (∀ v, (chainOf store.directory 0x0500#16).head? = some v → v.isTombstone = true)
    ∧ (∀ v, (chainOf store.directory 0xFFFE#16).head? = some v → v.isTombstone = true) := by
  refine ⟨fun _ _ _ _ _ => ⟨readyWith_holding rfl, rfl, rfl⟩, ⟨by decide, by decide⟩,
    ⟨by decide, by decide, by decide, by decide, by decide⟩, ⟨_, rfl, _, rfl⟩, ⟨_, rfl, fun _ h => nomatch h⟩,
    ⟨rfl, by decide⟩, ⟨rfl, by decide, _, rfl, rfl⟩, ?_, ?_⟩
  · intro v h
    cases h
    rfl
  · intro v h
    cases h

theorem witness_BodyRequestsStartFromEntryOrRecord :
    (∀ i : Intent, findIntent ((opened .p1 [i] store).txns.get .p1).intents i.tag = some i)
    ∧ (findIntent ((opened .p1 (intentsOf 16) store).txns.get .p1).intents 0x0200#16 = none
      ∧ 16 ≤ ((opened .p1 (intentsOf 16) store).txns.get .p1).intents.length)
    ∧ (findIntent ((opened .p1 (intentsOf 15) store).txns.get .p1).intents 0x0200#16 = none
      ∧ ((opened .p1 (intentsOf 15) store).txns.get .p1).intents.length < 16)
    ∧ (∀ v, (chainOf store.directory 0x0500#16).head? = some v → v.isTombstone = true)
    ∧ (chainOf store.directory 0x0200#16).head? = some counter12
    ∧ ((chainOf store.directory 0x0340#16).head? = some ⟨20#32, .blob attrs 100 [0, 1, 2, 3] 0x0000#16⟩
      ∧ attrs.writers.getLsbD Port.p1.index = true
      ∧ (attrs.writers.getLsbD Port.p2.index = false ∧ store.priv.getLsbD Port.p2.index = false)
      ∧ (attrs.writers.getLsbD Port.p0.index = false ∧ store.priv.getLsbD Port.p0.index = true)) := by
  refine ⟨?_, ⟨rfl, by decide⟩, ⟨rfl, by decide⟩, ?_, rfl, rfl, by decide, ⟨by decide, by decide⟩, by decide, by decide⟩
  · intro i
    simp [opened, findIntent]
  · intro v h
    cases h
    rfl

/-- A body of 2048 bytes in 64 pages of its own, and one a byte shorter. -/
def longBody (length : Nat) : StagedBody := ⟨length, (List.range 64).map (fun n => ⟨n, true⟩)⟩

/-- The pool in which it lies, with some pages free and a staged-owned count of port 1. -/
def longPool (free : List PageNo) (owned : Nat) : Pool := ⟨[], (List.range 64).map (fun n => (n, 1)), free, ⟨0, owned, 0, 0⟩⟩

/-- Counts at and past their ends; a refused start; an offset at the length and one past it, an end at 2048
and one past it; a claim granted to an entry and to a first touch, and one refused with each detail. -/
theorem witness_WriteStagesItsBytes :
    let bytes := fun (tag : Tag) (offset : BitVec 16) (count : Byte) (data : List Byte) =>
      0x22#8 :: (be16 tag ++ be16 offset ++ [count] ++ data)
    let countOk := fun (count : Byte) => 1 ≤ count.toNat ∧ count.toNat ≤ 64
    (∀ t o n data s, s.image.device = .ready → readyWith .p1 (bytes t o n data) (holding .p1 (bytes t o n data) s))
    ∧ ((opened .p1 [] store).txns.get .p1).state = .opened
    ∧ (countOk 0x01#8 ∧ countOk 0x40#8 ∧ ¬ countOk 0x00#8 ∧ ¬ countOk 0x41#8)
    ∧ findStart .p1 0x0500#16 (opened .p1 [] store) = .error (.plain .absent)
    ∧ findStart .p1 0x0340#16 (opened .p1 [] store) = .ok (.firstTouch 20#32 100 [0, 1, 2, 3])
    ∧ findStart .p1 0x0100#16 (opened .p1 [⟨0x0100#16, .written 1#32 (longBody 2047)⟩] store)
      = .ok (.entry (.written 1#32 (longBody 2047)) (longBody 2047))
    ∧ ((0x07FF#16).toNat ≤ (longBody 2047).length ∧ (0x07FF#16).toNat + (0x01#8).toNat ≤ 2048)
    ∧ 2048 < (0x07FF#16).toNat + (0x02#8).toNat ∧ (longBody 2046).length < (0x07FF#16).toNat
    ∧ (∃ r, stagedClaim .p1 (longPool [] 256) (longBody 2047) (writeBody 2047 [0x55#8] (longPool [] 256) (longBody 2047)) = .ok r)
    ∧ (∃ r, stagedClaim .p1 store.pool (StagedBody.ofBase 100 [0, 1, 2, 3])
        (writeBody 100 [0x55#8] (store.pool.gainAll [0, 1, 2, 3]) (StagedBody.ofBase 100 [0, 1, 2, 3])) = .ok r)
    ∧ stagedClaim .p1 (longPool [] 256) StagedBody.empty (writeBody 0 [0x55#8] (longPool [] 256) StagedBody.empty) = .error .pages
    ∧ stagedClaim .p1 (longPool [64] 256) StagedBody.empty (writeBody 0 [0x55#8] (longPool [64] 256) StagedBody.empty) = .error .quota :=
  ⟨fun _ _ _ _ _ h => readyWith_holding h, rfl, by decide, rfl, rfl, rfl, by decide, by decide, by decide, ⟨_, rfl⟩, ⟨_, rfl⟩, rfl, rfl⟩

theorem witness_ResizeStagesItsLength :
    let bytes := fun (tag : Tag) (length : BitVec 16) => 0x23#8 :: (be16 tag ++ be16 length)
    (∀ t n s, s.image.device = .ready → readyWith .p1 (bytes t n) (holding .p1 (bytes t n) s))
    ∧ ((0x0800#16).toNat ≤ 2048 ∧ ¬ (0x0801#16).toNat ≤ 2048)
    ∧ (∃ r, stagedClaim .p1 (longPool [] 256) (longBody 2047) (resizeBody 2048 (longPool [] 256) (longBody 2047)) = .ok r)
    ∧ (∃ r, stagedClaim .p1 store.pool (StagedBody.ofBase 100 [0, 1, 2, 3])
        (resizeBody 0 (store.pool.gainAll [0, 1, 2, 3]) (StagedBody.ofBase 100 [0, 1, 2, 3])) = .ok r)
    ∧ stagedClaim .p1 (longPool [] 256) StagedBody.empty (resizeBody 1 (longPool [] 256) StagedBody.empty) = .error .pages
    ∧ stagedClaim .p1 (longPool [64] 256) StagedBody.empty (resizeBody 1 (longPool [64] 256) StagedBody.empty) = .error .quota :=
  ⟨fun _ _ _ h => readyWith_holding h, ⟨by decide, by decide⟩, ⟨_, rfl⟩, ⟨_, rfl⟩, rfl, rfl⟩

/-- The entry of a CREATED BLOB with no body, of one with a body, and a first touch; a write behind the end, a growth
and a shrink to nothing and into the shared page. -/
theorem witness_ClaimsChangeOnlyTheirBody :
    let next := touched.pool.gainAll [0, 1]
    let copy := StagedBody.ofBase 33 [0, 1]
    ((PagesOk staged ∧ MemoriesOk staged)
      ∧ findStart .p0 0x0100#16 staged = .ok (.entry (.created attrs (.blob (some ⟨1, [⟨0, true⟩]⟩))) ⟨1, [⟨0, true⟩]⟩)
      ∧ (∃ r, writeBody 1 [0x55#8] staged.pool ⟨1, [⟨0, true⟩]⟩ = some r)
      ∧ (∃ r, resizeBody 33 staged.pool ⟨1, [⟨0, true⟩]⟩ = some r)
      ∧ ∃ r, resizeBody 0 staged.pool ⟨1, [⟨0, true⟩]⟩ = some r)
    ∧ ((PagesOk (hoard 4) ∧ MemoriesOk (hoard 4))
      ∧ findStart .p0 0x0100#16 (hoard 4) = .ok (.entry (.created attrs (.blob none)) ⟨0, []⟩)
      ∧ ∃ r, writeBody 0 [0x55#8] (hoard 4).pool ⟨0, []⟩ = some r)
    ∧ (PagesOk touched ∧ MemoriesOk touched) ∧ findStart .p1 0x0340#16 touched = .ok (.firstTouch 1#32 33 [0, 1])
    ∧ (∃ r, writeBody 33 [0x55#8] next copy = some r) ∧ ∃ r, resizeBody 1 next copy = some r :=
  ⟨⟨⟨staged_pagesOk, rfl, rfl, rfl⟩, rfl, ⟨_, rfl⟩, ⟨_, rfl⟩, ⟨_, rfl⟩⟩,
    ⟨⟨hoard_pagesOk (.inl rfl), hoard_memoriesOk (.inl rfl)⟩, rfl, ⟨_, rfl⟩⟩,
    ⟨touched_pagesOk, touched_memoriesOk⟩, rfl, ⟨_, rfl⟩, ⟨_, rfl⟩⟩

/-- No page free: WRITE and a growing RESIZE are refused PAGES, and a shrink into a page of its own is granted. The quota
reached: both are refused QUOTA. A first touch granted. -/
theorem witness_WriteClaimsAreRefusedForPagesThenQuota :
    let write := fun (s : State) => stagedClaim .p0 s.pool ⟨0, []⟩ (writeBody 0 (List.replicate 64 0x55#8) s.pool ⟨0, []⟩)
    let grow := fun (s : State) => stagedClaim .p0 s.pool ⟨0, []⟩ (resizeBody 1 s.pool ⟨0, []⟩)
    let body : StagedBody := ⟨2048, (List.range 64).map (fun m => ⟨m, true⟩)⟩
    (∀ n, n = 4 ∨ n = 16 → PagesOk (hoard n) ∧ MemoriesOk (hoard n)
      ∧ findStart .p0 0x0100#16 (hoard n) = .ok (.entry (.created attrs (.blob none)) ⟨0, []⟩))
    ∧ (write (hoard 16) = .error .pages ∧ grow (hoard 16) = .error .pages)
    ∧ (write (hoard 4) = .error .quota ∧ grow (hoard 4) = .error .quota)
    ∧ (findStart .p0 0x0001#16 (hoard 16) = .ok (.entry (.created attrs (.blob (some body))) body)
      ∧ 2017 < body.length
      ∧ (stagedClaim .p0 (hoard 16).pool body (resizeBody 2017 (hoard 16).pool body)).toOption.isSome = true)
    ∧ (PagesOk touched ∧ MemoriesOk touched) ∧ findStart .p1 0x0340#16 touched = .ok (.firstTouch 1#32 33 [0, 1])
    ∧ ∃ r, stagedClaim .p1 touched.pool (StagedBody.ofBase 33 [0, 1])
        (writeBody 33 [0x55#8] (touched.pool.gainAll [0, 1]) (StagedBody.ofBase 33 [0, 1])) = .ok r := by
  refine ⟨?_, ⟨by rfl, by rfl⟩, ⟨by rfl, by rfl⟩, ⟨by rfl, by decide, by decide +kernel⟩, ⟨touched_pagesOk, touched_memoriesOk⟩, rfl, _, rfl⟩
  intro n hn
  refine ⟨hoard_pagesOk hn, hoard_memoriesOk hn, ?_⟩
  rcases hn with rfl | rfl <;> rfl

theorem witness_AddAccumulatesItsDelta :
    let bytes := fun (tag : Tag) (delta : BitVec 32) => 0x24#8 :: (be16 tag ++ be32 delta)
    (∀ t d s, s.image.device = .ready → readyWith .p1 (bytes t d) (holding .p1 (bytes t d) s))
    ∧ (∀ i : Intent, findIntent ((opened .p1 [i] store).txns.get .p1).intents i.tag = some i)
    ∧ (findIntent (intentsOf 16) 0x0200#16 = none ∧ 16 ≤ (intentsOf 16).length)
    ∧ (findIntent (intentsOf 15) 0x0200#16 = none ∧ (intentsOf 15).length < 16)
    ∧ (∀ v, (chainOf store.directory 0x0500#16).head? = some v → v.isTombstone = true)
    ∧ (chainOf store.directory 0x0340#16).head? = some ⟨20#32, .blob attrs 100 [0, 1, 2, 3] 0x0000#16⟩
    ∧ (chainOf store.directory 0x0200#16).head? = some ⟨15#32, .counter attrs 12#32 (crc16 (be32 12#32))⟩
    ∧ attrs.writers.getLsbD Port.p1.index = true
    ∧ (attrs.writers.getLsbD Port.p2.index = false ∧ store.priv.getLsbD Port.p2.index = false) := by
  refine ⟨fun _ _ _ h => readyWith_holding h, ?_, ⟨rfl, by decide⟩, ⟨rfl, by decide⟩, ?_, rfl, rfl, by decide, by decide, by decide⟩
  · intro i
    simp [opened, findIntent]
  · intro v h
    cases h
    rfl

theorem witness_DeleteStagesOrDropsAnIntent :
    let bytes := fun (tag : Tag) => 0x25#8 :: be16 tag
    (∀ t s, s.image.device = .ready → readyWith .p1 (bytes t) (holding .p1 (bytes t) s))
    ∧ (∀ i : Intent, findIntent ((opened .p1 [i] store).txns.get .p1).intents i.tag = some i)
    ∧ (findIntent (intentsOf 16) 0x0200#16 = none ∧ 16 ≤ (intentsOf 16).length)
    ∧ (findIntent (intentsOf 15) 0x0200#16 = none ∧ (intentsOf 15).length < 16)
    ∧ (∀ v, (chainOf store.directory 0x0500#16).head? = some v → v.isTombstone = true)
    ∧ ((chainOf store.directory 0x0340#16).head? = some blob100 ∧ blob100.attrs? = some attrs)
    ∧ attrs.writers.getLsbD Port.p1.index = true
    ∧ (attrs.writers.getLsbD Port.p2.index = false ∧ store.priv.getLsbD Port.p2.index = false) := by
  refine ⟨fun _ _ h => readyWith_holding h, ?_, ⟨rfl, by decide⟩, ⟨rfl, by decide⟩, ?_, ⟨rfl, rfl⟩, by decide, by decide, by decide⟩
  · intro i
    simp [opened, findIntent]
  · intro v h
    cases h
    rfl

theorem witness_CommitEndsAnEmptyTransactionAtOnce (x : CtxState) (intents : List Intent) :
    readyWith .p0 [0x26#8] (holding .p0 [0x26#8] (inState .p0 x intents store))
    ∧ ((holding .p0 [0x26#8] (inState .p0 x intents store)).txns.get .p0).state = x
    ∧ ((holding .p0 [0x26#8] (inState .p0 x intents store)).txns.get .p0).intents = intents :=
  ⟨readyWith_holding rfl, rfl, rfl⟩

theorem witness_AbortDiscardsOrWithdraws (x : CtxState) :
    (readyWith .p0 [0x27#8] (holding .p0 [0x27#8] (inState .p0 x [] store))
      ∧ ((holding .p0 [0x27#8] (inState .p0 x [] store)).txns.get .p0).state = x)
    ∧ (readyWith .p0 [0x27#8] (holding .p0 [0x27#8] staged) ∧ ((holding .p0 [0x27#8] staged).txns.get .p0).state = .opened
      ∧ PagesOk (holding .p0 [0x27#8] staged)) :=
  have h := staged_pagesOk
  ⟨⟨readyWith_holding rfl, rfl⟩, readyWith_holding rfl, rfl,
    ⟨h.1, h.2, h.3, h.4, h.5, h.6, h.7, h.8, h.9, h.10, h.11, h.12, h.13, h.14⟩⟩

theorem witness_TxnStatusReportsTheContext (x : CtxState) :
    readyWith .p0 [0x28#8] (holding .p0 [0x28#8] (inState .p0 x [] store))
    ∧ ((holding .p0 [0x28#8] (inState .p0 x [] store)).txns.get .p0).state = x :=
  ⟨readyWith_holding rfl, rfl⟩

theorem witness_IdleExpiryEndsTheTransaction (t : Timer) :
    ((ready.setTxn .p1 ⟨.opened, [], t, .none, .none⟩).txns.get .p1).state = .opened
    ∧ ((ready.setTxn .p1 ⟨.opened, [], t, .none, .none⟩).txns.get .p1).idle = t := ⟨rfl, rfl⟩

/-! ### Witnesses: the commit engine -/

/-- Port 1 at the head of the queue with an intent list. -/
def headOf (g : Gen) (intents : List Intent) : State :=
  inState .p1 .queued intents { store with g := g, commitQueue := [.p1, .p0] }

/-- A directory of `n` records, tags 1 to `n`, each of two versions. -/
def records (n : Nat) : List DirSlot := (List.range n).map (fun k => ⟨BitVec.ofNat 16 (k + 1), [counter12, counter12]⟩)

/-- G at its end and below it; a failing intent behind a passing one; one version entry too few and exactly
enough; one slot too few and exactly enough. -/
theorem witness_TakeValidatesInOrder :
    (∀ g intents, (headOf g intents).engine = .idle ∧ (headOf g intents).commitQueue = .p1 :: [.p0]
      ∧ ((headOf g intents).txns.get .p1).intents = intents)
    ∧ 0xFFFFFFFE#32 ≠ 0xFFFFFFFF#32
    ∧ (passesTake store.directory ⟨0x0200#16, .added 15#32 7⟩ ∧ ¬ passesTake store.directory ⟨0x0340#16, .deleted 19#32⟩)
    ∧ (256 - entriesInUse (records 128) = 0 ∧ 256 - entriesInUse (records 127) = 2)
    ∧ (128 - (records 128).length < 1 ∧ 1 ≤ 128 - (records 127).length)
    ∧ passesTake (records 127) ⟨0x0080#16, .created attrs (.counter 0)⟩ := by
  refine ⟨fun _ _ => ⟨rfl, rfl, rfl⟩, by decide, ⟨⟨counter12, rfl, rfl⟩, ?_⟩, ⟨by decide +kernel, by decide +kernel⟩,
    ⟨by decide +kernel, by decide +kernel⟩, ?_⟩
  · rintro ⟨v, h, hg⟩
    cases h
    exact absurd hg (by decide)
  · intro v h
    have : chainOf (records 127) 0x0080#16 = [] := by decide +kernel
    rw [this] at h
    cases h

/-- A body's last page and one before it; a body of 33 bytes in two pages. -/
theorem witness_DigestGivesTheCrcOfTheBody :
    let c := fun (pages : List PageNo) => Commit.mk .p0 1 1 [⟨0x0100#16, pages, 33, 0xFFFF#16⟩] []
    (∀ pages, ({ ready with engine := .digesting (c pages) } : State).engine = .digesting (c pages)
      ∧ (c pages).todo = ⟨0x0100#16, pages, 33, 0xFFFF#16⟩ :: [])
    ∧ [0, 1].length = pagesFor 33 := ⟨fun _ => ⟨rfl, rfl⟩, rfl⟩

theorem witness_PublishInstallsAndTells :
    Coherent busy ∧ busy.engine = .digesting ⟨.p0, 1, 0, [], []⟩ ∧ (Commit.mk .p0 1 0 [] []).todo = []
    ∧ (busy.txns.get .p0).state = .applying ∧ 0x0200#16 ∈ (busy.notes.get .p1).watches :=
  ⟨busy_coherent, rfl, rfl, rfl, List.mem_singleton.mpr rfl⟩

theorem witness_InstalledContentsFollowTheOperation :
    [((0x0340#16 : Tag), (0x1234#16 : Crc))].lookup 0x0340#16 = some 0x1234#16
    ∧ ([] : List (Tag × Crc)).lookup 0x0340#16 = none
    ∧ (chainOf store.directory 0x0340#16).head? = some (Version.mk 20#32 (.blob attrs 100 [0, 1, 2, 3] 0x0000#16))
    ∧ (chainOf store.directory 0x0200#16).head? = some ⟨15#32, .counter attrs 12#32 (crc16 (be32 12#32))⟩ :=
  ⟨rfl, rfl, rfl, rfl⟩

/-! ### Witnesses: watches, events and attention -/

/-- A watch list of `n` tags, 1 to `n`. -/
def tagsOf (n : Nat) : List Tag := (List.range n).map (fun k => BitVec.ofNat 16 (k + 1))

/-- A port's notification state with a watch list. -/
def watching (p : Port) (watches : List Tag) (s : State) : State := s.setNote p { Notify.afterReset with watches := watches }

/-- A tag on a full list; a new tag at 16 and at 15 tags. -/
theorem witness_WatchAddsItsTag :
    (∀ tag watches, readyWith .p1 (0x30#8 :: be16 tag) (holding .p1 (0x30#8 :: be16 tag) (watching .p1 watches ready))
      ∧ ((holding .p1 (0x30#8 :: be16 tag) (watching .p1 watches ready)).notes.get .p1).watches = watches)
    ∧ 0x0010#16 ∈ tagsOf 16 ∧ (0xFFFE#16 ∉ tagsOf 16 ∧ 16 ≤ (tagsOf 16).length)
    ∧ (0xFFFE#16 ∉ tagsOf 15 ∧ (tagsOf 15).length < 16)
    ∧ ∀ tag, frameHolds .p1 (0x30#8 :: be16 tag) (holding .p1 (0x30#8 :: be16 tag) (loadingAt .header1 []))
      ∧ (holding .p1 (0x30#8 :: be16 tag) (loadingAt .header1 [])).image.device = .loading :=
  ⟨fun _ _ => ⟨readyWith_holding rfl, rfl⟩, by decide, ⟨by decide, by decide⟩, ⟨by decide, by decide⟩,
    fun _ => ⟨frameHolds_holding _ _ _, rfl⟩⟩

theorem witness_UnwatchRemovesItsTag :
    (∀ tag, readyWith .p1 (0x31#8 :: be16 tag) (holding .p1 (0x31#8 :: be16 tag) (watching .p1 (tagsOf 16) ready))
      ∧ ((holding .p1 (0x31#8 :: be16 tag) (watching .p1 (tagsOf 16) ready)).notes.get .p1).Ok)
    ∧ tagsOf 16 = tagsOf 15 ++ 0x0010#16 :: [] ∧ (0x0010#16 ≠ 0xFFFF#16 ∧ 0x0011#16 ∉ tagsOf 16) := by
  refine ⟨fun _ => ⟨readyWith_holding rfl, ?_⟩, by decide, by decide, by decide⟩
  show Notify.Ok { Notify.afterReset with watches := tagsOf 16 }
  exact notify_ok (by decide)

/-- Two entries queued, and the flags of Table 6-6, step 9. -/
def told : Notify :=
  ⟨[], [⟨.changed, 0x0800#16, 303#32, .zero⟩, ⟨.deleted, 0x0820#16, 303#32, .zero⟩], 1, 0x07#6, 0x06#6, true⟩

/-- Every count, 2 (the last entry) and 255 among them; sets that name the flags defined and one that is not. -/
theorem witness_PeekCopiesAckRemovesFlagClearClears :
    (∀ bytes, readyWith .p1 bytes (holding .p1 bytes (ready.setNote .p1 told))
      ∧ ((holding .p1 bytes (ready.setNote .p1 told)).notes.get .p1).Ok)
    ∧ (told.queue.drop 2 = [] ∧ told.queue.drop 1 ≠ []) ∧ (0x3F#8).toNat < 64 ∧ 64 ≤ (0x40#8).toNat := by
  refine ⟨fun _ => ⟨readyWith_holding rfl, ?_⟩, ⟨rfl, by decide⟩, by decide, by decide⟩
  show told.Ok
  exact notify_ok (by decide)

/-- A queue of `n` entries. -/
def queueOf (n : Nat) : List Event := (List.range n).map (fun k => ⟨.changed, BitVec.ofNat 16 (k + 1), 5#32, .zero⟩)

/-- A port that holds `n` entries. -/
def queued (n : Nat) : State := ready.setNote .p1 ⟨[], queueOf n, 0, 0x01#6, 0x00#6, false⟩

/-- 7 and 8 entries, and an entry of the arrival's kind and tag in a full queue. -/
theorem witness_ArrivalsCoalesceJoinOrDrop :
    (NotesOk (queued 7) ∧ NotesOk (queued 8))
    ∧ (((queued 8).notes.get .p1).queue = queueOf 7 ++ ⟨.changed, 0x0008#16, 5#32, .zero⟩ :: [])
    ∧ ((∀ x ∈ queueOf 7, ¬ (x.kind = .snapLapsed ∧ x.tag = 0x0000#16)) ∧ (queueOf 7).length < 8)
    ∧ (∀ x ∈ queueOf 8, ¬ (x.kind = .snapLapsed ∧ x.tag = 0x0000#16)) ∧ (queueOf 8).length = 8 := by
  refine ⟨⟨?_, ?_⟩, by decide, ⟨by decide, by decide⟩, by decide, by decide⟩
  · intro p
    cases p
    case p1 =>
      show Notify.Ok ⟨[], queueOf 7, 0, 0x01#6, 0x00#6, false⟩
      exact notify_ok (by decide)
    all_goals exact ready_notes_ok .p0
  · intro p
    cases p
    case p1 =>
      show Notify.Ok ⟨[], queueOf 8, 0, 0x01#6, 0x00#6, false⟩
      exact notify_ok (by decide)
    all_goals exact ready_notes_ok .p0

/-! ### Witnesses: the image store -/

/-- A READY device with this current slot and sequence. -/
def currentIs (current : Option ImageSlot) (sequence : Gen) : State :=
  { store with image := { ready.image with current := current, sequence := sequence } }

theorem witness_CheckpointBindsSlotFourAndCancelEndsIt :
    (∀ bytes x n, readyWith .p1 bytes (holding .p1 bytes (currentIs x n))
      ∧ (holding .p1 bytes (currentIs x n)).image.current = x ∧ (holding .p1 bytes (currentIs x n)).image.sequence = n
      ∧ (holding .p1 bytes (currentIs x n)).image.checkpoint = none)
    ∧ (∀ bytes x, readyWith .p1 bytes (holding .p1 bytes (saving x .none))
      ∧ (holding .p1 bytes (saving x .none)).image.checkpoint = some ⟨x, .slot0, 0, 0⟩)
    ∧ 0xFFFFFFFE#32 ≠ 0xFFFFFFFF#32
    ∧ store.priv.getLsbD Port.p1.index = true ∧ store.priv.getLsbD Port.p2.index = false :=
  ⟨fun _ _ _ => ⟨readyWith_holding rfl, rfl, rfl, rfl⟩, fun _ _ => ⟨readyWith_holding rfl, rfl⟩, by decide, by decide, by decide⟩

/-- Every stage and poll; the load's polls at a header of each slot; a directory in order. -/
theorem witness_PollReadySendsTheOperation (x : Stage) (next : AfterPoll) :
    let load := fun (l : Loader) => ({ loadingAt l [] with
      image := { (loadingAt l []).image with op := .poll .loadRead (some 400) } } : State)
    (saving x (.poll next (some 400))).image.op = .poll next (some 400)
    ∧ (saving x (.poll next (some 400))).image.checkpoint = some ⟨x, .slot0, 0, 0⟩
    ∧ ((load .header0).image.op = .poll .loadRead (some 400) ∧ (load .header0).image.loader = .header0)
    ∧ ((load .header1).image.op = .poll .loadRead (some 400) ∧ (load .header1).image.loader ≠ .header0)
    ∧ (store.directory.map DirSlot.tag).Pairwise (· < ·) := ⟨rfl, rfl, ⟨rfl, rfl⟩, ⟨rfl, by decide⟩, by decide +kernel⟩

/-- Sectors 14 and 15; a stream of two entries of 12 and 108 bytes, less than one unit; data read back equal and not. -/
theorem witness_FlashEndsAdvanceTheCheckpoint :
    (∀ x op, (saving x op).image.checkpoint = some ⟨x, .slot0, 0, 0⟩ ∧ (saving x op).image.op = op)
    ∧ (14 < 15 ∧ 15 ≤ 15)
    ∧ (savedRecords store.directory 20#32).map Prod.fst = [0x0200#16, 0x0340#16]
    ∧ (imageStream store.pool (savedRecords store.directory 20#32)).length = 120
    ∧ imageStream ready.pool (savedRecords ready.directory 20#32) = []
    ∧ (some [0x45#8]).getD [] = [0x45#8] ∧ (some [0x44#8]).getD [] ≠ [0x45#8] :=
  ⟨fun _ _ => ⟨rfl, rfl⟩, by decide, by decide +kernel, by decide +kernel, rfl, rfl, by decide⟩

/-- Device reset has ended and the load's first poll is under way. -/
theorem booted_imageOk : ImageOk (after (.deviceResetEnd 0#3 0#4) State.reset) where
  inReset := by intro h; cases h
  readyLoaded := by intro h; cases h
  loadingNoCheckpoint := fun _ => ⟨rfl, rfl⟩
  noCurrentNoSequence := fun _ => rfl
  target := by intro c i h; cases h
  sector := by intro c k h; cases h
  unit := by intro c u q h; cases h
  opOwner := by decide +kernel
  opLoad := fun _ _ => ⟨rfl, by decide⟩
  readQuiet := by intro h; cases h
  loadQuiet := fun _ => rfl
  headersOp := fun _ => .inr ⟨_, rfl⟩
  notYetInstalled := fun _ => rfl
  entriesOp := by rintro c (h | h) <;> cases h
  runUnit := by intro addr data h; cases h
  opUnit := by intro data h; cases h
  totals := by intro c h; cases h
  runSpares := by intro run i h; cases h

theorem witness_FlashTimeoutsEndTheirWork :
    let polling := fun (l : Loader) (t : Timer) => { ready with image := { Image.afterReset with loader := l, op := .poll .loadRead t } }
    (∀ l t, (polling l t).image.op = .poll .loadRead t ∧ (polling l t).image.loader = l) ∧ Loader.header1 ≠ .header0
    ∧ ImageOk (after (.deviceResetEnd 0#3 0#4) State.reset)
    ∧ (∀ x op, (saving x op).image.op = op ∧ (saving x op).image.checkpoint = some ⟨x, .slot0, 0, 0⟩)
    ∧ AfterPoll.erase ≠ .loadRead ∧ (some 1 : Timer) ≠ some 0 :=
  ⟨fun _ _ => ⟨rfl, rfl⟩, by decide, booted_imageOk, fun _ _ => ⟨rfl, rfl⟩, by decide, by decide⟩

/-- The check pass at the last entry head that a slot holds. -/
def loading : State := loadingAt (.checking ⟨.slot1, ⟨8#32, 500#32, 1, 4⟩, [], 0, 65528, none, 0⟩) []

theorem loading_imageOk : ImageOk loading where
  inReset := by intro h; cases h
  readyLoaded := by intro h; cases h
  loadingNoCheckpoint := fun _ => ⟨rfl, rfl⟩
  noCurrentNoSequence := fun _ => rfl
  target := by intro c i h; cases h
  sector := by intro c k h; cases h
  unit := by intro c u q h; cases h
  opOwner := by decide +kernel
  opLoad := fun _ _ => ⟨rfl, by decide⟩
  readQuiet := by intro h; cases h
  loadQuiet := fun _ => rfl
  headersOp := by rintro (h | h) <;> cases h
  notYetInstalled := fun _ => rfl
  entriesOp := by
    rintro c (h | h)
    · cases h; exact .inl rfl
    · cases h
  runUnit := by intro addr data h; cases h
  opUnit := by intro data h; cases h
  totals := by intro c h; cases h
  runSpares := by intro run i h; cases h

/-- An erase and a program under way over an array that holds a byte in and a byte just out of their region. -/
theorem witness_FlashOperationsLand :
    let mem : Memory := [(4096, 0x0F#8), (8192, 0x01#8)]
    Memory.wf erasedByte mem = true
    ∧ (Flash.mk mem (some (.erase 4096))).running = some (.erase 4096)
    ∧ (Flash.mk mem (some (.program 4096 [0xF1#8]))).running = some (.program 4096 [0xF1#8])
    ∧ (List.replicate 4096 0xFF#8).length = 4096 ∧ (List.replicate 256 0xFF#8).length = 256
    ∧ (Flash.mk mem none).running = none
    ∧ (∀ x op, (saving x op).image.op = op ∧ (saving x op).image.loader = .idle)
    ∧ (∀ l, (loadingAt l []).image.loader = l ∧ (loadingAt l []).image.op = .loadRead)
    ∧ (loading.image.op ≠ .none ∧ ImageOk loading) :=
  ⟨by decide, rfl, rfl, List.length_replicate, List.length_replicate, rfl, fun _ _ => ⟨rfl, rfl⟩, fun _ => ⟨rfl, rfl⟩,
    by decide, loading_imageOk⟩

/-- The entry of the COUNTER of Table 10-13, written at the first entry of slot 1. -/
theorem witness_ImageLayoutsReadBack :
    (3 < 65536 ∧ 304 < 4294967296)
    ∧ 0x0200#16 ≠ 0x0000#16 ∧ 0x0200#16 ≠ 0xFFFF#16 ∧ counter12.kind? = some .counter ∧ counter12.attrs? = some attrs
    ∧ counter12.length ≤ 2048 ∧ crc16 (counter12.body store.pool) = counter12.crc ∧ 256 + 8 + counter12.length ≤ 65536
    ∧ (Flash.mk imageInSlot1 none).bytesAt (ImageSlot.slot1.base + 256) (8 + counter12.length)
      = imageEntry store.pool (0x0200#16, counter12) :=
  ⟨by decide, by decide, by decide, rfl, rfl, by decide, by decide +kernel, by decide, by decide +kernel⟩

/-- The header that `imageInSlot1` holds. -/
def headerInSlot1 : ImageHeader := ⟨8#32, 500#32, 1, 4⟩

/-- The load's reading of the slots: no image, one, two; record counts 1 and 0; an entry that passes, one that does
not rise above the last tag, none; the last entry with the header's sum and without it. -/
theorem witness_LoadChoosesAndChecksASlot :
    let header := fun (m : Memory) (i : ImageSlot) => parseHeader ((List.range 256).map (fun k => cellRead 0xFF#8 m (i.base + k)))
    (∀ m, (loadingAt .header1 m).image.loader = .header1 ∧ (loadingAt .header1 m).image.op = .loadRead)
    ∧ (let past : State := { ready with image := { Image.afterReset with loader := .checking { cursorInSlot1 with offset := 65529 } } }
      past.image.loader = .checking { cursorInSlot1 with offset := 65529 } ∧ past.image.op = .none)
    ∧ (List.replicate 256 0xFF#8).length = 256
    ∧ (header [] .slot0 = none ∧ header [] .slot1 = none)
    ∧ (header imageInSlot1 .slot0 = none ∧ header imageInSlot1 .slot1 = some headerInSlot1 ∧ headerInSlot1.records ≠ 0)
    ∧ (header (writeBlock 0xFF#8 imageInSlot1 0 (ImageHeader.mk 7#32 400#32 0 0).bytes) .slot0 = some ⟨7#32, 400#32, 0, 0⟩
      ∧ (7#32 : Gen) < 8#32 ∧ (8#32 : Gen) ≤ 8#32)
    ∧ (∀ c m, (loadingAt (.checking c) m).image.loader = .checking c)
    ∧ readEntry ⟨imageInSlot1, none⟩ .slot1 256 = some ⟨0x0200#16, .counter, attrs, 4, counter12.crc, be32 12#32⟩
    ∧ readEntry ⟨imageInSlot1, none⟩ .slot1 268 = none
    ∧ (cursorInSlot1.lastTag = none ∧ (0x0200#16 : Tag) ≤ 0x0200#16 ∧ (0x01FF#16 : Tag) < 0x0200#16)
    ∧ (cursorInSlot1.header.records ≤ cursorInSlot1.index + 1 ∧ cursorInSlot1.sum + 4 = cursorInSlot1.header.bodyBytes
      ∧ cursorInSlot1.sum + 5 ≠ cursorInSlot1.header.bodyBytes) :=
  ⟨fun _ => ⟨rfl, rfl⟩, ⟨rfl, rfl⟩, List.length_replicate, ⟨by decide +kernel, by decide +kernel⟩,
    ⟨by decide +kernel, by decide +kernel, by decide⟩, ⟨by decide +kernel, by decide, by decide⟩, fun _ _ => rfl, by decide +kernel, by decide +kernel,
    ⟨rfl, by decide, by decide⟩, by decide, rfl, by decide⟩

/-- Room with one slot and one entry left and none with no slot left; a COUNTER; a BLOB with exactly its pages free and
with one too few. -/
theorem witness_InstallPassInstallsOrStops :
    let free := fun (pages : List PageNo) (dir : List DirSlot) (c : LoadCursor) (m : Memory) =>
      ({ loadingAt (.installing c) m with directory := dir, pool := ⟨[], [], pages, PortMap.same 0⟩ } : State)
    let blob : LoadEntry := ⟨0x0300#16, .blob, attrs, 33, crc16 (List.replicate 33 0x55#8), List.replicate 33 0x55#8⟩
    let m := writeBlock 0xFF#8 [] 0x10100 ([0x03#8, 0x00#8, 0x11#8, 0x02#8, 0x00#8, 0x21#8] ++ be16 blob.crc ++ blob.body)
    (∀ pages dir c m, (free pages dir c m).image.loader = .installing c ∧ (free pages dir c m).image.op = .loadRead
      ∧ Memory.wf 0x00#8 (free pages dir c m).pool.bytes = true)
    ∧ readEntry ⟨imageInSlot1, none⟩ .slot1 256 = some ⟨0x0200#16, .counter, attrs, 4, counter12.crc, be32 12#32⟩
    ∧ readEntry ⟨m, none⟩ .slot1 256 = some blob
    ∧ chainOf (records 127) 0x0200#16 = []
    ∧ (0 < freeSlots (free [] (records 127) cursorInSlot1 m) ∧ 0 < freeEntries (free [] (records 127) cursorInSlot1 m))
    ∧ ¬ 0 < freeSlots (free [] (records 128) cursorInSlot1 m)
    ∧ ([0, 1].length = (blob.length + 31) / 32 ∧ [0].length < (blob.length + 31) / 32 ∧ [0, 1].Nodup ∧ blob.body.length = blob.length) :=
  ⟨fun _ _ _ _ => ⟨rfl, rfl, rfl⟩, by decide +kernel, by decide +kernel, by decide +kernel, ⟨by decide +kernel, by decide +kernel⟩,
    by decide +kernel, by decide, by decide, by decide, by decide⟩

end Sys2Proof.Tests
end

section
/-! SUPPORT. Facts that every transaction request uses: the row of a request that is taken, the idle timer's load, the
staging requests as one kind of request, and what releasing staged bodies leaves of the staged-owned counts. -/

namespace Sys2Proof.Machine

/-! ### The row of a request that is taken -/

/-- The state on which a request is taken: its port's frame is over and the stream ended (R164, R165, R169). -/
abbrev judgedState (p : Port) (s : State) : State := s.setIface p (judgedIface p s)

/-- A complete request on a READY device whose taking turns `s` into `t`, the port's interface aside, leaves `t` and
the reply. -/
theorem exec_requestRow_taken {r : Request} {p : Port} {args : List Byte} {s t : State} {a : Answer}
    (h : readyWith p (requestCode r :: args) s) (hl : declaredLength (requestCode r :: args) ≤ args.length + 1)
    (ht : takingOf r p args (judgedState p s) = (judgedState p t, a)) :
    exec (requestRow r p) s = .next (replied p a.result (requestCode r) s.g a.payload t) := by
  obtain ⟨hready, hframe⟩ := h
  rw [exec_requestRow, endRequest_taken_replied hframe hl (.inl hready) ht]

/-- The idle timer's load reads the port's configuration, which the end of a frame leaves alone. -/
theorem loadIdle_judgedState (p : Port) (s : State) : loadIdle p (judgedState p s) = loadIdle p s := by
  simp [loadIdle, judgedIface]

/-! ### Staging requests -/

/-- The five staging requests share the common part of R66 to R68, each with checks and an effect of its own. -/
theorem takingOf_staging {r : Request} (hr : r ∈ [Request.create, .write, .resize, .add, .delete]) (p : Port)
    (args : List Byte) (s : State) : ∃ act, takingOf r p args s = staging p act s := by
  simp only [List.mem_cons, List.not_mem_nil, or_false] at hr
  rcases hr with rfl | rfl | rfl | rfl | rfl
  all_goals exact ⟨_, rfl⟩

theorem noteStaging_judgedState (p : Port) (d : StagingDetail) (s : State) :
    noteStaging p d (judgedState p s) = judgedState p (noteStaging p d s) := by
  rw [noteStaging, loadIdle_judgedState]
  rfl

/-- A staging request in OPEN that its checks refuse with a plain result. -/
theorem exec_staging_refused {r : Request} {p : Port} {args : List Byte} {s : State} {x : Result}
    (h : readyWith p (requestCode r :: args) s) (hl : declaredLength (requestCode r :: args) ≤ args.length + 1)
    (ho : (s.txns.get p).state = .opened)
    (ht : takingOf r p args (judgedState p s) = staging p (.error (.plain x)) (judgedState p s)) :
    exec (requestRow r p) s = .next (stagedReply p x (requestCode r) .none s) := by
  refine exec_requestRow_taken (a := Answer.bare x) (t := noteStaging p .none s) h hl ?_
  obtain ⟨-, -, hopen⟩ := staging_cases p (.error (.plain x)) (judgedState p s)
  obtain ⟨-, hplain, -⟩ := hopen ho
  rw [ht, hplain x rfl, noteStaging_judgedState]

/-- A staging request in OPEN that is accepted and makes `t` of the state. -/
theorem exec_staging_accepted {r : Request} {p : Port} {args : List Byte} {s t : State}
    (h : readyWith p (requestCode r :: args) s) (hl : declaredLength (requestCode r :: args) ≤ args.length + 1)
    (ho : (s.txns.get p).state = .opened) (hg : t.g = s.g)
    (ht : takingOf r p args (judgedState p s) = staging p (.ok (judgedState p t)) (judgedState p s)) :
    exec (requestRow r p) s = .next (stagedReply p .ok (requestCode r) .none t) := by
  rw [stagedReply, hg]
  refine exec_requestRow_taken (a := Answer.bare .ok) (t := noteStaging p .none t) h hl ?_
  obtain ⟨-, -, hopen⟩ := staging_cases p (.ok (judgedState p t)) (judgedState p s)
  obtain ⟨hok, -, -⟩ := hopen ho
  rw [ht, hok _ rfl, noteStaging_judgedState]

/-! ### Lookup and tags -/

theorem recordTag_iff (t : Tag) : recordTag t = true ↔ t ≠ 0x0000#16 ∧ t ≠ 0xFFFF#16 := by
  simp [recordTag]

/-- A chain that begins with a live version makes the lookup live (R3). -/
theorem lookup_of_live_head {dir : List DirSlot} {tag : Tag} {v : Version}
    (h : (chainOf dir tag).head? = some v) (hv : v.isTombstone = false) : lookup dir tag = .liveHead v := by
  obtain ⟨older, hc⟩ := List.head?_eq_some_iff.mp h
  simp [lookup, hc, hv]

/-- A chain that is empty or begins with a tombstone makes no lookup live (R3). -/
theorem lookup_of_no_live_head {dir : List DirSlot} {tag : Tag}
    (h : ∀ v, (chainOf dir tag).head? = some v → v.isTombstone = true) :
    lookup dir tag = .absent ∨ ∃ v, lookup dir tag = .deletedHead v := by
  cases hc : chainOf dir tag with
  | nil => exact .inl (by simp only [lookup, hc])
  | cons v older =>
    have hv : v.isTombstone = true := h v (by rw [hc]; rfl)
    exact .inr ⟨v, by simp only [lookup, hc, hv, if_true]⟩

/-! ### Staged-owned counts (R28, R33) -/

theorem Pool.lose_stagedOwned (pool : Pool) (n : PageNo) : (pool.lose n).stagedOwned = pool.stagedOwned := by
  unfold Pool.lose
  split <;> rfl

theorem Pool.loseAll_stagedOwned (pool : Pool) (ns : List PageNo) :
    (pool.loseAll ns).stagedOwned = pool.stagedOwned := by
  induction ns generalizing pool with
  | nil => rfl
  | cons n ns ih => exact (ih _).trans (pool.lose_stagedOwned n)

/-- A release takes the body's staged-owned pages off its port's count and leaves the other ports' (R33). -/
theorem Pool.releaseBody_stagedOwned (pool : Pool) (p : Port) (body : StagedBody) :
    (pool.releaseBody p body).stagedOwned
      = pool.stagedOwned.set p (pool.stagedOwned.get p - body.ownedCount) := by
  simp only [Pool.releaseBody, Pool.loseAll_stagedOwned]

/-- Releasing the bodies of intents takes all their staged-owned pages off the port's count. -/
theorem releaseBodies_stagedOwned_get (p : Port) (pool : Pool) (intents : List Intent) :
    (releaseBodies p pool intents).stagedOwned.get p
      = pool.stagedOwned.get p - ((intents.filterMap (fun i => i.op.body?)).map StagedBody.ownedCount).sum := by
  induction intents generalizing pool with
  | nil => rfl
  | cons i rest ih =>
    have hstep : releaseBodies p pool (i :: rest) = releaseBodies p (releaseOp p i.op pool) rest := rfl
    rw [hstep, ih]
    cases hb : i.op.body? with
    | none => simp [releaseOp, hb]
    | some body => simp [releaseOp, hb, Pool.releaseBody_stagedOwned, Nat.sub_sub]

/-- The release of a whole transaction brings its port's staged-owned count to 0, since that count is the sum over
the staged bodies (R83). -/
theorem releaseBodies_stagedOwned_eq_zero {s : State} (h : PagesOk s) (p : Port) :
    (releaseBodies p s.pool (s.txns.get p).intents).stagedOwned.get p = 0 := by
  rw [releaseBodies_stagedOwned_get, h.stagedOwned p]
  exact Nat.sub_self _

end Sys2Proof.Machine
end

section
/-! SUPPORT. BEGIN, COMMIT and ABORT by context state, and CREATE's checks in their order; then the statements about
them. -/

namespace Sys2Proof.Machine

/-! ### BEGIN by context state (R71) -/

theorem takeBegin_of_none {p : Port} {s : State} (h : (s.txns.get p).state = .none) :
    takeBegin p s = (s.setTxn p ⟨.opened, [], loadIdle p s, .none, .none⟩, Answer.bare .ok) := by
  simp only [takeBegin, h]

theorem takeBegin_of_opened {p : Port} {s : State} (h : (s.txns.get p).state = .opened) :
    takeBegin p s = (s.setTxn p { s.txns.get p with idle := loadIdle p s }, Answer.bare .txnOpen) := by
  simp only [takeBegin, h]

theorem takeBegin_of_busy {p : Port} {s : State}
    (h : (s.txns.get p).state = .queued ∨ (s.txns.get p).state = .applying ∨ (s.txns.get p).state = .detached) :
    takeBegin p s = (s, Answer.bare .busy) := by
  rcases h with h | h | h <;> simp only [takeBegin, h]

theorem takingOf_begin (p : Port) (args : List Byte) (s : State) :
    takingOf .beginTxn p args s = takeBegin p s := rfl

/-- Settles O32: BEGIN by its context's state, and the staging requests outside OPEN by `staging_cases`. -/
theorem beginOpensAndStagingNeedsOpen : Obligations.BeginOpensAndStagingNeedsOpen := by
  refine ⟨fun p s h => ⟨fun hs => ?_, fun hs => ?_, fun hs => ?_⟩,
    fun r p s args hr h hl => ⟨fun hs => ?_, fun hs => ?_⟩⟩
  · refine exec_requestRow_taken (r := .beginTxn) (a := Answer.bare .ok) h le_rfl ?_
    rw [takingOf_begin, takeBegin_of_none (s := judgedState p s) hs, loadIdle_judgedState]
    rfl
  · refine exec_requestRow_taken (r := .beginTxn) (a := Answer.bare .txnOpen) h le_rfl ?_
    rw [takingOf_begin, takeBegin_of_opened (s := judgedState p s) hs, loadIdle_judgedState]
    rfl
  · exact exec_requestRow_taken (r := .beginTxn) (a := Answer.bare .busy) h le_rfl (takeBegin_of_busy hs)
  · obtain ⟨act, hact⟩ := takingOf_staging hr p args (judgedState p s)
    obtain ⟨hnone, -, -⟩ := staging_cases p act (judgedState p s)
    exact exec_requestRow_taken (a := Answer.bare .noTxn) h hl (hact.trans (hnone hs))
  · obtain ⟨act, hact⟩ := takingOf_staging hr p args (judgedState p s)
    obtain ⟨-, hbusy, -⟩ := staging_cases p act (judgedState p s)
    exact exec_requestRow_taken (a := Answer.bare .busy) h hl (hact.trans (hbusy hs))

/-! ### COMMIT by context state (R80, R81) -/

theorem takeCommit_of_empty {p : Port} {s : State} (h : (s.txns.get p).state = .opened)
    (hi : (s.txns.get p).intents = []) :
    takeCommit p s
      = (s.setTxn p ⟨.none, [], none, (s.txns.get p).refusal, .committed s.g⟩, Answer.bare .ok) := by
  simp only [takeCommit, h, hi, List.isEmpty_nil, if_true]

theorem takeCommit_of_intents {p : Port} {s : State} (h : (s.txns.get p).state = .opened)
    (hi : (s.txns.get p).intents ≠ []) :
    takeCommit p s
      = ({ s with commitQueue := s.commitQueue ++ [p] }.setTxn p { s.txns.get p with state := .queued, idle := none },
        Answer.bare .queued) := by
  simp only [takeCommit, h, List.isEmpty_iff, hi, if_false]

theorem takeCommit_of_none {p : Port} {s : State} (h : (s.txns.get p).state = .none) :
    takeCommit p s = (s, Answer.bare .noTxn) := by
  simp only [takeCommit, h]

theorem takeCommit_of_busy {p : Port} {s : State}
    (h : (s.txns.get p).state = .queued ∨ (s.txns.get p).state = .applying ∨ (s.txns.get p).state = .detached) :
    takeCommit p s = (s, Answer.bare .busy) := by
  rcases h with h | h | h <;> simp only [takeCommit, h]

/-- Settles O41: COMMIT by its context's state, in OPEN by whether the intent list is empty. -/
theorem commitEndsAnEmptyTransactionAtOnce : Obligations.CommitEndsAnEmptyTransactionAtOnce := by
  refine fun p s h => ⟨fun hs hi => ?_, fun hs hi => ?_, fun hs => ?_, fun hs => ?_⟩
  · exact exec_requestRow_taken (r := .commit) (a := Answer.bare .ok) h le_rfl (takeCommit_of_empty hs hi)
  · exact exec_requestRow_taken (r := .commit) (a := Answer.bare .queued) h le_rfl (takeCommit_of_intents hs hi)
  · exact exec_requestRow_taken (r := .commit) (a := Answer.bare .noTxn) h le_rfl (takeCommit_of_none hs)
  · exact exec_requestRow_taken (r := .commit) (a := Answer.bare .busy) h le_rfl (takeCommit_of_busy hs)

/-! ### ABORT by context state (R83 to R85) -/

theorem takeAbort_of_opened {p : Port} {s : State} (h : (s.txns.get p).state = .opened) :
    takeAbort p s = (discardTxn p .aborted s, Answer.bare .ok) := by
  simp only [takeAbort, h]

theorem takeAbort_of_queued {p : Port} {s : State} (h : (s.txns.get p).state = .queued) :
    takeAbort p s = (discardTxn p .withdrawn (leaveQueue p s), Answer.bare .ok) := by
  simp only [takeAbort, h]

theorem takeAbort_of_committing {p : Port} {s : State}
    (h : (s.txns.get p).state = .applying ∨ (s.txns.get p).state = .detached) :
    takeAbort p s = (s, Answer.bare .tooLate) := by
  rcases h with h | h <;> simp only [takeAbort, h]

theorem takeAbort_of_none {p : Port} {s : State} (h : (s.txns.get p).state = .none) :
    takeAbort p s = (s, Answer.bare .noTxn) := by
  simp only [takeAbort, h]

/-- Settles O42: ABORT by its context's state; the staged-owned count comes to 0 because PagesOk makes it the sum
over the bodies released. -/
theorem abortDiscardsOrWithdraws : Obligations.AbortDiscardsOrWithdraws := by
  refine ⟨fun p s h hs => ⟨?_, fun hpages => releaseBodies_stagedOwned_eq_zero hpages p⟩,
    fun p s h => ⟨fun hs => ?_, fun hs => ?_, fun hs => ?_⟩⟩
  · exact exec_requestRow_taken (r := .abort) (a := Answer.bare .ok) h le_rfl (takeAbort_of_opened hs)
  · exact exec_requestRow_taken (r := .abort) (a := Answer.bare .ok) h le_rfl (takeAbort_of_queued hs)
  · exact exec_requestRow_taken (r := .abort) (a := Answer.bare .tooLate) h le_rfl (takeAbort_of_committing hs)
  · exact exec_requestRow_taken (r := .abort) (a := Answer.bare .noTxn) h le_rfl (takeAbort_of_none hs)

/-! ### CREATE's fields (R72, R188, Table 10-2) -/

/-- The fields of a CREATE name a kind, writers among the four ports and whether it persists. -/
def createFieldsOk (kind writers persist : Byte) : Prop :=
  (kind = 0x01#8 ∨ kind = 0x02#8) ∧ writers.toNat < 16 ∧ (persist = 0x01#8 ∨ persist = 0x02#8)

theorem Kind.ofCode_isSome_iff (b : Byte) : (Kind.ofCode b).isSome ↔ b = 0x01#8 ∨ b = 0x02#8 := by
  unfold Kind.ofCode
  split_ifs <;> simp_all

theorem Persist.ofCode_isSome_iff (b : Byte) : (Persist.ofCode b).isSome ↔ b = 0x01#8 ∨ b = 0x02#8 := by
  unfold Persist.ofCode
  split_ifs <;> simp_all

theorem Kind.ofCode_of_valid {b : Byte} (h : b = 0x01#8 ∨ b = 0x02#8) :
    Kind.ofCode b = some (if b = 0x01#8 then .blob else .counter) := by
  rcases h with rfl | rfl <;> rfl

theorem Persist.ofCode_of_valid {b : Byte} (h : b = 0x01#8 ∨ b = 0x02#8) :
    Persist.ofCode b = some (if b = 0x01#8 then .persistent else .volatile) := by
  rcases h with rfl | rfl <;> rfl

/-- The bits that stand for no port are clear exactly in the bytes below 16. -/
theorem writers_high_bits_clear_iff (b : Byte) : b &&& 0xF0#8 = 0#8 ↔ b.toNat < 16 := by
  revert b
  decide

theorem writersOfByte_of_lt {b : Byte} (h : b.toNat < 16) : writersOfByte b = some (b.setWidth 4) := by
  rw [writersOfByte, if_pos ((writers_high_bits_clear_iff b).mpr h)]

theorem writersOfByte_isSome_iff (b : Byte) : (writersOfByte b).isSome ↔ b.toNat < 16 := by
  simp [writersOfByte, writers_high_bits_clear_iff]

/-! ### CREATE's checks, in the order of R67 -/

section
variable {p : Port} {tag : Tag} {kind writers persist : Byte} {s : State}

/-- Step 1 of R67: a tag that is no record tag, or a field out of its range. -/
theorem actCreate_of_range (h : ¬ ((tag ≠ 0x0000#16 ∧ tag ≠ 0xFFFF#16) ∧ createFieldsOk kind writers persist)) :
    actCreate p tag kind writers persist s = .error (.plain .range) := by
  unfold actCreate
  split
  next htag =>
    split
    next k w q hk hw hq =>
      have hfields : createFieldsOk kind writers persist :=
        ⟨(Kind.ofCode_isSome_iff _).mp (by simp [hk]), (writersOfByte_isSome_iff _).mp (by simp [hw]),
          (Persist.ofCode_isSome_iff _).mp (by simp [hq])⟩
      exact absurd ⟨(recordTag_iff tag).mp htag, hfields⟩ h
    next => rfl
  next => rfl

variable (htag : tag ≠ 0x0000#16 ∧ tag ≠ 0xFFFF#16) (hfields : createFieldsOk kind writers persist)
include htag hfields

/-- What the checks of step 1 read from arguments in range. -/
theorem create_arguments_read : recordTag tag = true
    ∧ Kind.ofCode kind = some (if kind = 0x01#8 then .blob else .counter)
    ∧ writersOfByte writers = some (writers.setWidth 4)
    ∧ Persist.ofCode persist = some (if persist = 0x01#8 then .persistent else .volatile) := by
  obtain ⟨hkind, hwriters, hpersist⟩ := hfields
  exact ⟨(recordTag_iff tag).mpr htag, Kind.ofCode_of_valid hkind, writersOfByte_of_lt hwriters,
    Persist.ofCode_of_valid hpersist⟩

theorem actCreate_of_deleted_entry {i : Intent} {base : Gen} (hi : findIntent (s.txns.get p).intents tag = some i)
    (hop : i.op = .deleted base) : actCreate p tag kind writers persist s = .error (.plain .deleted) := by
  obtain ⟨ht, hk, hw, hq⟩ := create_arguments_read htag hfields
  obtain ⟨_, op⟩ := i
  obtain rfl : op = .deleted base := hop
  simp only [actCreate, ht, if_true, hk, hw, hq, hi]

theorem actCreate_of_other_entry {i : Intent} (hi : findIntent (s.txns.get p).intents tag = some i)
    (hop : ∀ base, i.op ≠ .deleted base) :
    actCreate p tag kind writers persist s = .error (.plain .alreadyExists) := by
  obtain ⟨ht, hk, hw, hq⟩ := create_arguments_read htag hfields
  obtain ⟨_, op⟩ := i
  cases op with
  | deleted base => exact absurd rfl (hop base)
  | created _ _ | written _ _ | added _ _ => simp only [actCreate, ht, if_true, hk, hw, hq, hi]

variable (hi : findIntent (s.txns.get p).intents tag = none)
include hi

theorem actCreate_of_limit (hroom : 16 ≤ (s.txns.get p).intents.length) :
    actCreate p tag kind writers persist s = .error (.plain .limit) := by
  obtain ⟨ht, hk, hw, hq⟩ := create_arguments_read htag hfields
  simp only [actCreate, ht, if_true, hk, hw, hq, hi, Config.maxIntents, hroom]

variable (hroom : (s.txns.get p).intents.length < 16)
include hroom

theorem actCreate_of_live_record {v : Version} (hv : (chainOf s.directory tag).head? = some v)
    (hlive : v.isTombstone = false) : actCreate p tag kind writers persist s = .error (.plain .alreadyExists) := by
  obtain ⟨ht, hk, hw, hq⟩ := create_arguments_read htag hfields
  simp only [actCreate, ht, if_true, hk, hw, hq, hi, Config.maxIntents, Nat.not_le.mpr hroom, if_false,
    lookup_of_live_head hv hlive]

/-- A tag that no record holds: the CREATED entry joins the tail (R73). -/
theorem actCreate_of_no_live_record (hv : ∀ v, (chainOf s.directory tag).head? = some v → v.isTombstone = true) :
    actCreate p tag kind writers persist s = .ok (withIntents p ((s.txns.get p).intents ++ [⟨tag, .created
      ⟨writers.setWidth 4, if persist = 0x01#8 then .persistent else .volatile⟩
      (if kind = 0x01#8 then .blob none else .counter 0)⟩]) s) := by
  obtain ⟨ht, hk, hw, hq⟩ := create_arguments_read htag hfields
  by_cases hkind : kind = 0x01#8
  all_goals
    simp only [hkind, if_true, if_false] at hk ⊢
    rcases lookup_of_no_live_head hv with hl | ⟨v, hl⟩
    all_goals
      simp only [actCreate, ht, if_true, hk, hw, hq, hi, Config.maxIntents, Nat.not_le.mpr hroom, if_false, hl]

end

/-- The row of a CREATE reads its four arguments from the frame. -/
theorem takingOf_create (p : Port) (tag : Tag) (kind writers persist : Byte) (s : State) :
    takingOf .create p (be16 tag ++ [kind, writers, persist]) s
      = staging p (actCreate p tag kind writers persist s) s := by
  have hargs : takingOf .create p (be16 tag ++ [kind, writers, persist]) s
      = takeCreate p (argTag (be16 tag ++ [kind, writers, persist])) kind writers persist s := rfl
  rw [hargs, argTag_be16, takeCreate]

/-- Settles O33: the checks of CREATE in the order of R67, each judged on the state whose frame is over. -/
theorem createAppendsACreatedIntent : Obligations.CreateAppendsACreatedIntent := by
  intro p s tag kind writers persist h ho
  have hrefused : ∀ x, actCreate p tag kind writers persist (judgedState p s) = .error (.plain x) →
      exec (.create p) s = .next (stagedReply p x 0x21#8 .none s) := fun x hx =>
    exec_staging_refused (r := .create) h le_rfl ho ((takingOf_create ..).trans (by rw [hx]))
  refine ⟨fun hbad => hrefused _ (actCreate_of_range hbad), fun ⟨htag, hfields⟩ =>
    ⟨fun i hi => ⟨?_, fun hop => ?_⟩, fun hi => ⟨fun hroom => ?_, fun hroom => ⟨?_, fun hv => ?_⟩⟩⟩⟩
  · rintro ⟨base, hop⟩
    exact hrefused _ (actCreate_of_deleted_entry htag hfields hi hop)
  · exact hrefused _ (actCreate_of_other_entry htag hfields hi hop)
  · exact hrefused _ (actCreate_of_limit htag hfields hi hroom)
  · rintro ⟨v, hv, hlive⟩
    exact hrefused _ (actCreate_of_live_record htag hfields hi hroom hv hlive)
  · refine exec_staging_accepted (r := .create) h le_rfl ho rfl ((takingOf_create ..).trans ?_)
    rw [actCreate_of_no_live_record (s := judgedState p s) htag hfields hi hroom hv]
    rfl

end Sys2Proof.Machine
end

section
/-! SUPPORT. WATCH and UNWATCH by their checks in order, and what the arrival of an event does to a port's queue,
lost count, flags and line; then the statements about them. -/

namespace Sys2Proof.Machine

/-! ### WATCH, in the order of R120 -/

section
variable {p : Port} {tag : Tag} {s : State}

theorem takeWatch_of_range (h : tag = 0x0000#16 ∨ tag = 0xFFFF#16) :
    takeWatch p tag s = (s, ⟨.range, watchCount (s.notes.get p)⟩) := by
  have hno : ¬ recordTag tag = true := fun hr => by
    obtain ⟨hzero, hall⟩ := (recordTag_iff tag).mp hr
    exact h.elim hzero hall
  rw [takeWatch, if_neg hno]

theorem takeWatch_of_mem (htag : recordTag tag = true) (hmem : tag ∈ (s.notes.get p).watches) :
    takeWatch p tag s = (s, ⟨.ok, watchCount (s.notes.get p)⟩) := by
  rw [takeWatch, if_pos htag, if_pos hmem]

theorem takeWatch_of_full (htag : recordTag tag = true) (hmem : tag ∉ (s.notes.get p).watches)
    (hfull : 16 ≤ (s.notes.get p).watches.length) :
    takeWatch p tag s = (s, ⟨.limit, watchCount (s.notes.get p)⟩) := by
  rw [takeWatch, if_pos htag, if_neg hmem, if_pos (show Config.maxWatches ≤ _ from hfull)]

theorem takeWatch_of_room (htag : recordTag tag = true) (hmem : tag ∉ (s.notes.get p).watches)
    (hroom : (s.notes.get p).watches.length < 16) :
    takeWatch p tag s = (s.setNote p { s.notes.get p with watches := (s.notes.get p).watches ++ [tag] },
      ⟨.ok, [BitVec.ofNat 8 ((s.notes.get p).watches.length + 1)]⟩) := by
  rw [takeWatch, if_pos htag, if_neg hmem, if_neg (show ¬ Config.maxWatches ≤ _ from Nat.not_le.mpr hroom)]
  simp only [watchCount, natByte, List.length_append, List.length_singleton]

/-- The row of a WATCH reads its tag from the frame. -/
theorem exec_watch_taken {t : State} {a : Answer} (h : readyWith p (0x30#8 :: be16 tag) s)
    (ht : takeWatch p tag (judgedState p s) = (judgedState p t, a)) :
    exec (.watch p) s = .next (replied p a.result 0x30#8 s.g a.payload t) := by
  refine exec_requestRow_taken (r := .watch) h le_rfl (Eq.trans ?_ ht)
  rw [takingOf, requestWatch, argTag_be16_only]

end

/-- Settles O49: WATCH by its checks in order; a LOADING device refuses the complete frame before they are made. -/
theorem watchAddsItsTag : Obligations.WatchAddsItsTag := by
  refine ⟨fun p s tag h => ⟨fun hrange => ?_, fun hzero hall => ?_⟩, fun p s tag hd h => ?_⟩
  · exact exec_watch_taken h (takeWatch_of_range hrange)
  · have htag : recordTag tag = true := (recordTag_iff tag).mpr ⟨hzero, hall⟩
    refine ⟨fun hmem => ?_, fun hmem hfull => ?_, fun hmem hroom => ?_⟩
    · exact exec_watch_taken h (takeWatch_of_mem htag hmem)
    · exact exec_watch_taken h (takeWatch_of_full htag hmem hfull)
    · exact exec_watch_taken (t := s.setNote p { s.notes.get p with watches := _ ++ [tag] }) h
        (takeWatch_of_room (s := judgedState p s) htag hmem hroom)
  · have hrow := exec_requestRow .watch p s
    rw [endRequest_notReady (r := .watch) h le_rfl hd (by decide)] at hrow
    exact hrow

/-! ### UNWATCH (R121) -/

section
variable {p : Port} {tag : Tag} {s : State}

theorem takeUnwatch_of_all :
    takeUnwatch p 0xFFFF#16 s = (s.setNote p { s.notes.get p with watches := [] }, ⟨.ok, [BitVec.ofNat 8 0]⟩) := by
  rw [takeUnwatch, if_pos rfl]
  rfl

/-- On a list that holds no tag twice, leaving out every occurrence of a tag takes out one entry (R119). -/
theorem filter_ne_of_nodup {before behind : List Tag} (h : (before ++ tag :: behind).Nodup) :
    (before ++ tag :: behind).filter (fun t => t != tag) = before ++ behind := by
  have hbefore : tag ∉ before := fun hmem => List.disjoint_of_nodup_append h hmem List.mem_cons_self
  rw [← h.erase_eq_filter, List.erase_append_right _ hbefore, List.erase_cons_head]

theorem takeUnwatch_of_mem {before behind : List Tag} (hall : tag ≠ 0xFFFF#16)
    (hw : (s.notes.get p).watches = before ++ tag :: behind) (hd : (s.notes.get p).watches.Nodup) :
    takeUnwatch p tag s = (s.setNote p { s.notes.get p with watches := before ++ behind },
      ⟨.ok, [BitVec.ofNat 8 (before ++ behind).length]⟩) := by
  have hmem : tag ∈ (s.notes.get p).watches := by simp [hw]
  have hleft : (s.notes.get p).watches.filter (fun t => t != tag) = before ++ behind := by
    rw [hw] at hd ⊢
    exact filter_ne_of_nodup hd
  rw [takeUnwatch, if_neg hall, if_pos hmem]
  simp only [hleft, watchCount, natByte]

theorem takeUnwatch_of_not_mem (hall : tag ≠ 0xFFFF#16) (hmem : tag ∉ (s.notes.get p).watches) :
    takeUnwatch p tag s = (s, ⟨.absent, watchCount (s.notes.get p)⟩) := by
  rw [takeUnwatch, if_neg hall, if_neg hmem]

/-- The row of an UNWATCH reads its tag from the frame. -/
theorem exec_unwatch_taken {t : State} {a : Answer} (h : readyWith p (0x31#8 :: be16 tag) s)
    (ht : takeUnwatch p tag (judgedState p s) = (judgedState p t, a)) :
    exec (.unwatch p) s = .next (replied p a.result 0x31#8 s.g a.payload t) := by
  refine exec_requestRow_taken (r := .unwatch) h le_rfl (Eq.trans ?_ ht)
  rw [takingOf, requestUnwatch, argTag_be16_only]

theorem exec_unwatch_of_not_mem (h : readyWith p (0x31#8 :: be16 tag) s) (hall : tag ≠ 0xFFFF#16)
    (hmem : tag ∉ (s.notes.get p).watches) :
    exec (.unwatch p) s = .next (replied p .absent 0x31#8 s.g (watchCount (s.notes.get p)) s) :=
  exec_unwatch_taken h (takeUnwatch_of_not_mem hall hmem)

end

/-- A watch list in order holds record tags alone, so not 0x0000 (R119). -/
theorem Notify.Ok.zero_not_mem_watches {n : Notify} (h : n.Ok) : 0x0000#16 ∉ n.watches := fun hmem =>
  absurd (h.watchTags _ hmem) (by decide)

/-- Settles O50: UNWATCH by its tag; 0x0000 is a tag that no list in order holds. -/
theorem unwatchRemovesItsTag : Obligations.UnwatchRemovesItsTag := by
  intro p s tag h hok n leaves
  have habsent : tag ≠ 0xFFFF#16 → tag ∉ n.watches → leaves .absent n.watches := fun hall hmem => by
    show exec (.unwatch p) s = .next (replied p .absent 0x31#8 s.g _ (s.setNote p (s.notes.get p)))
    rw [State.setNote_get]
    exact exec_unwatch_of_not_mem h hall hmem
  refine ⟨?_, fun before behind hall hw => ?_, habsent, ?_⟩
  · rintro rfl
    exact exec_unwatch_taken (t := s.setNote p { s.notes.get p with watches := [] }) h takeUnwatch_of_all
  · exact exec_unwatch_taken (t := s.setNote p { s.notes.get p with watches := before ++ behind }) h
      (takeUnwatch_of_mem (s := judgedState p s) hall hw hok.watchesDiffer)
  · rintro rfl
    exact habsent (by decide) hok.zero_not_mem_watches

/-! ### Flags and line after a change of the notification state (R129, R130, R133) -/

/-- While an entry waits, QUEUE is set and the line follows flags and mask. -/
theorem Notify.settle_of_ne_nil {n : Notify} (h : n.queue ≠ []) : n.settle = { n with
    flags := n.flags ||| flagQueue, attnLow := (n.flags ||| flagQueue) &&& n.mask != 0#6 } := by
  simp only [Notify.settle, List.isEmpty_iff, h, if_false]

/-- A producer's flag on a state with an entry waiting. -/
theorem Notify.raise_settle_of_ne_nil {n : Notify} (h : n.queue ≠ []) (f : FlagSet) : n.settle.raise f = { n with
    flags := n.flags ||| flagQueue ||| f, attnLow := (n.flags ||| flagQueue ||| f) &&& n.mask != 0#6 } := by
  have hqueue : n.flags ||| flagQueue ||| f ||| flagQueue = n.flags ||| flagQueue ||| f := by
    rw [BitVec.or_assoc, BitVec.or_comm f, ← BitVec.or_assoc, BitVec.or_assoc n.flags, BitVec.or_self]
  rw [settle_of_ne_nil h, Notify.raise, settle_of_ne_nil (by exact h)]
  simp only [hqueue]

/-- QUEUE is one flag. -/
theorem or_flagQueue_of_set {flags : FlagSet} (h : flags &&& flagQueue ≠ 0#6) : flags ||| flagQueue = flags := by
  revert flags
  decide

theorem Notify.Ok.flags_or_flagQueue {n : Notify} (h : n.Ok) (hq : n.queue ≠ []) :
    n.flags ||| flagQueue = n.flags :=
  or_flagQueue_of_set (fun hclear => hq (h.queueFlag.mpr hclear))

/-! ### Coalescing (R124) -/

theorem Event.sameAs_iff (e x : Event) : e.sameAs x = true ↔ x.kind = e.kind ∧ x.tag = e.tag := by
  simp [Event.sameAs]

theorem Event.coalesce_of_same {e x : Event} (hk : x.kind = e.kind) (ht : x.tag = e.tag) : e.coalesce x = e := by
  rw [Event.coalesce, if_pos ((e.sameAs_iff x).mpr ⟨hk, ht⟩), hk, ht]

/-- Entries of another kind or tag stay as they are. -/
theorem Event.map_coalesce_of_differ {e : Event} {queue : List Event}
    (h : ∀ x ∈ queue, ¬ (x.kind = e.kind ∧ x.tag = e.tag)) : queue.map e.coalesce = queue := by
  refine (List.map_congr_left fun x hx => ?_).trans (List.map_id queue)
  rw [Event.coalesce, if_neg (mt (e.sameAs_iff x).mp (h x hx)), id_eq]

theorem Event.any_sameAs_eq_false {e : Event} {queue : List Event}
    (h : ∀ x ∈ queue, ¬ (x.kind = e.kind ∧ x.tag = e.tag)) : ¬ queue.any e.sameAs = true := by
  rw [List.any_eq_true]
  rintro ⟨x, hx, hsame⟩
  exact h x hx ((e.sameAs_iff x).mp hsame)

/-- In a queue whose entries differ in kind or tag, an arrival changes the one entry of its own kind and tag. -/
theorem Event.map_coalesce_of_entry {e x : Event} {before behind : List Event}
    (hd : ((before ++ x :: behind).map (fun e => (e.kind, e.tag))).Nodup) (hk : x.kind = e.kind) (ht : x.tag = e.tag) :
    (before ++ x :: behind).map e.coalesce = before ++ e :: behind := by
  rw [List.map_append, List.map_cons, List.nodup_middle, List.nodup_cons, ← List.map_append] at hd
  obtain ⟨hx, -⟩ := hd
  have hothers : ∀ y ∈ before ++ behind, ¬ (y.kind = e.kind ∧ y.tag = e.tag) := fun y hy ⟨hyk, hyt⟩ =>
    hx (List.mem_map.mpr ⟨y, hy, by rw [hyk, hyt, hk, ht]⟩)
  rw [List.map_append, List.map_cons, coalesce_of_same hk ht,
    map_coalesce_of_differ fun y hy => hothers y (List.mem_append_left _ hy),
    map_coalesce_of_differ fun y hy => hothers y (List.mem_append_right _ hy)]

/-! ### An arrival, by what the queue holds (R124, R125) -/

section
variable {n : Notify} {e : Event}

theorem Notify.arrive_of_entry {x : Event} {before behind : List Event} (hok : n.Ok)
    (hq : n.queue = before ++ x :: behind) (hk : x.kind = e.kind) (ht : x.tag = e.tag) :
    n.arrive e = Notify.settle { n with queue := before ++ e :: behind } := by
  have hany : n.queue.any e.sameAs = true :=
    List.any_eq_true.mpr ⟨x, by simp [hq], (e.sameAs_iff x).mpr ⟨hk, ht⟩⟩
  have hd := hok.entriesDiffer
  rw [hq] at hd
  rw [Notify.arrive, if_pos hany, hq, Event.map_coalesce_of_entry hd hk ht]

variable (hnew : ∀ x ∈ n.queue, ¬ (x.kind = e.kind ∧ x.tag = e.tag))
include hnew

theorem Notify.arrive_of_room (hroom : n.queue.length < 8) :
    n.arrive e = Notify.settle { n with queue := n.queue ++ [e] } := by
  rw [Notify.arrive, if_neg (Event.any_sameAs_eq_false hnew), if_pos (show _ < Config.maxEvents from hroom)]

theorem Notify.arrive_of_full (hok : n.Ok) (hfull : n.queue.length = 8) :
    n.arrive e = Notify.settle { n with lost := min 255 (n.lost + 1), flags := n.flags ||| flagOverflow } := by
  have hlost : (if n.lost < Config.maxLost then n.lost + 1 else Config.maxLost) = min 255 (n.lost + 1) := by
    rcases hok.lostBound.lt_or_eq with hlt | heq
    · rw [if_pos hlt, min_eq_right (show n.lost + 1 ≤ 255 from hlt)]
    · rw [heq, if_neg (lt_irrefl _)]
      rfl
  rw [Notify.arrive, if_neg (Event.any_sameAs_eq_false hnew),
    if_neg (show ¬ _ < Config.maxEvents from Nat.not_lt.mpr hfull.ge), hlost]

end

/-- The delivery of an event and a flag, from what the arrival leaves. -/
theorem deliver_of_arrive {p : Port} {e : Event} {f : FlagSet} {s : State} {m : Notify} {flags : FlagSet}
    (h : (s.notes.get p).arrive e = m.settle) (hq : m.queue ≠ []) (hf : m.flags ||| flagQueue = flags) :
    deliver p e f s = s.setNote p { m with flags := flags ||| f, attnLow := (flags ||| f) &&& m.mask != 0#6 } := by
  rw [deliver, h, Notify.raise_settle_of_ne_nil hq, hf]

/-- Settles O52: an arrival by what the queue holds; NotesOk keeps the matching entry single and QUEUE set while an
entry waits. -/
theorem arrivalsCoalesceJoinOrDrop : Obligations.ArrivalsCoalesceJoinOrDrop := by
  intro p e f s hok _ n handed
  have hn : n.Ok := hok p
  refine ⟨fun before x behind hq hk ht => ?_, fun hnew => ⟨fun hroom => ?_, fun hfull => ?_⟩,
    deliverRecordEvent_notes e s⟩
  · exact deliver_of_arrive (Notify.arrive_of_entry hn hq hk ht) (by simp) (hn.flags_or_flagQueue (by simp [hq]))
  · exact deliver_of_arrive (Notify.arrive_of_room hnew hroom) (by simp) rfl
  · have hqueue : n.queue ≠ [] := List.ne_nil_of_length_eq_add_one hfull
    have hflags : n.flags ||| flagOverflow ||| flagQueue = n.flags ||| flagOverflow := by
      rw [BitVec.or_assoc, BitVec.or_comm flagOverflow, ← BitVec.or_assoc, hn.flags_or_flagQueue hqueue]
    exact deliver_of_arrive (Notify.arrive_of_full hnew hn hfull) hqueue hflags

end Sys2Proof.Machine
end

section
/-! SUPPORT. CONFIGURE by the range check of its four fields, what a new mask leaves of a port's notification state,
and DEVICE_STATUS; then the statement about them. -/

namespace Sys2Proof.Machine

/-! ### A new mask (R132, R133) -/

theorem and_not_flagQueue_of_clear {flags : FlagSet} (h : flags &&& flagQueue = 0#6) : flags &&& ~~~flagQueue = flags := by
  revert flags
  decide

/-- Where QUEUE already follows the queue, settling changes the line alone. -/
theorem Notify.settle_of_queueFlag {n : Notify} (h : n.queue = [] ↔ n.flags &&& flagQueue = 0#6) :
    n.settle = { n with attnLow := n.flags &&& n.mask != 0#6 } := by
  by_cases hq : n.queue = []
  · simp only [settle, hq, List.isEmpty_nil, if_true, and_not_flagQueue_of_clear (h.mp hq)]
  · rw [settle_of_ne_nil hq, or_flagQueue_of_set (mt h.mpr hq)]

/-- A new mask moves the line at once; the flags stay. -/
theorem Notify.Ok.withMask_eq {n : Notify} (h : n.Ok) (mask : FlagSet) :
    n.withMask mask = { n with mask := mask, attnLow := n.flags &&& mask != 0#6 } :=
  Notify.settle_of_queueFlag (n := { n with mask := mask }) h.queueFlag

/-! ### The fields of CONFIGURE (Tables 8-4 and 10-4) -/

/-- The bits that stand for no flag are clear exactly in the bytes below 64. -/
theorem flagByteOk_iff (b : Byte) : flagByteOk b = true ↔ b.toNat < 64 := by
  revert b
  decide

theorem byteOfFlags_flagsOfByte {b : Byte} (h : b.toNat < 64) : byteOfFlags (flagsOfByte b) = b := by
  apply BitVec.eq_of_toNat_eq
  simp only [byteOfFlags, flagsOfByte, BitVec.toNat_setWidth]
  omega

theorem configInRange_iff (idle hold stall : Nat) (mask : Byte) : configInRange idle hold stall mask = true ↔
    idle ≤ 60000 ∧ hold ≤ 60000 ∧ 10 ≤ stall ∧ stall ≤ 250 ∧ mask.toNat < 64 := by
  simp only [configInRange, Bool.and_eq_true, decide_eq_true_iff, flagByteOk_iff, and_assoc]
  rfl

/-- The reply names the four fields as they were asked for. -/
theorem configPayload_setConfig (p : Port) (idle hold : BitVec 16) (stall : Byte) {mask : Byte} (h : mask.toNat < 64)
    (s : State) : configPayload p (setConfig p ⟨idle.toNat, hold.toNat, stall.toNat⟩ (flagsOfByte mask) s)
      = be16 idle ++ be16 hold ++ [stall, mask] := by
  simp [configPayload, setConfig, Notify.withMask, Notify.settle, natBe16, natByte, byteOfFlags_flagsOfByte h]

/-- Setting the fields touches neither the frame nor the stream. -/
theorem setConfig_judgedState (p : Port) (config : PortConfig) (mask : FlagSet) (s : State) :
    setConfig p config mask (judgedState p s) = judgedState p (setConfig p config mask s) := by
  simp [setConfig, judgedIface, State.setNote_setIface]

/-- What CONFIGURE reads out does not depend on the frame. -/
theorem configPayload_judgedState (p : Port) (s : State) : configPayload p (judgedState p s) = configPayload p s := by
  simp [configPayload, judgedIface]

/-! ### CONFIGURE (R176) -/

section
variable {p : Port} {idle hold : BitVec 16} {stall mask : Byte} {s : State}

/-- The row of a CONFIGURE reads its four fields from the frame. -/
theorem takingOf_configure : takingOf .configure p (be16 idle ++ be16 hold ++ [stall, mask]) s
    = takeConfigure p idle.toNat hold.toNat stall.toNat mask s := by
  have hargs : takingOf .configure p (be16 idle ++ be16 hold ++ [stall, mask]) s
      = takeConfigure p (arg16 (be16 idle ++ (be16 hold ++ [stall, mask])) 0)
        (arg16 (be16 idle ++ (be16 hold ++ [stall, mask])) 2) stall.toNat mask s := rfl
  rw [hargs, arg16_be16, arg16_be16_be16]

variable (h : readyWith p (0x02#8 :: (be16 idle ++ be16 hold ++ [stall, mask])) s)
include h

theorem exec_configure_of_inRange (hr : configInRange idle.toNat hold.toNat stall.toNat mask = true) :
    exec (.configure p) s = .next (replied p .ok 0x02#8 s.g (be16 idle ++ be16 hold ++ [stall, mask])
      (setConfig p ⟨idle.toNat, hold.toNat, stall.toNat⟩ (flagsOfByte mask) s)) := by
  obtain ⟨-, -, -, -, hmask⟩ := (configInRange_iff ..).mp hr
  refine exec_requestRow_taken (r := .configure) (a := ⟨.ok, be16 idle ++ be16 hold ++ [stall, mask]⟩) h le_rfl ?_
  rw [takingOf_configure, takeConfigure, if_pos hr]
  simp only [setConfig_judgedState, configPayload_judgedState, configPayload_setConfig p idle hold stall hmask]

theorem exec_configure_of_outOfRange (hr : ¬ configInRange idle.toNat hold.toNat stall.toNat mask = true) :
    exec (.configure p) s = .next (replied p .range 0x02#8 s.g (configPayload p s) s) := by
  refine exec_requestRow_taken (r := .configure) (a := ⟨.range, configPayload p s⟩) h le_rfl ?_
  rw [takingOf_configure, takeConfigure, if_neg hr, configPayload_judgedState]

end

/-! ### DEVICE_STATUS (R178) -/

/-- No field of DEVICE_STATUS depends on the frame. -/
theorem statusPayload_judgedState (p : Port) (s : State) : statusPayload p (judgedState p s) = statusPayload p s := rfl

/-- DEVICE_STATUS is the one request that no device state refuses. -/
theorem exec_deviceStatus {p : Port} {s : State} (h : frameHolds p [0x01#8] s) :
    exec (.deviceStatus p) s = .next (replied p .ok 0x01#8 s.g (statusPayload p s) s) := by
  have htaken : takingOf .deviceStatus p [] (judgedState p s) = (judgedState p s, ⟨.ok, statusPayload p s⟩) := by
    rw [takingOf, requestDeviceStatus, takeDeviceStatus, statusPayload_judgedState]
  have hrow := exec_requestRow .deviceStatus p s
  rw [endRequest_taken_replied (r := .deviceStatus) h le_rfl (.inr rfl) htaken] at hrow
  exact hrow

/-- Settles O25: CONFIGURE by its range check, on a notification state where QUEUE follows the queue; DEVICE_STATUS
with its payload as the model writes it; and the codes of Table 10-2. -/
theorem configureSetsAndDeviceStatusReports : Obligations.ConfigureSetsAndDeviceStatusReports := by
  refine ⟨fun p s idle hold stall mask h hok => ⟨fun hr => ?_, fun hr => ?_⟩, fun p s h => exec_deviceStatus h,
    rfl, rfl, fun _ _ _ => ⟨rfl, fun _ => rfl, fun _ _ => rfl, rfl⟩, rfl, rfl⟩
  · rw [exec_configure_of_inRange h ((configInRange_iff ..).mpr hr), setConfig, hok.withMask_eq, flagsOfByte]
  · exact exec_configure_of_outOfRange h (mt (configInRange_iff ..).mp hr)

end Sys2Proof.Machine
end

section
/-! SUPPORT. What a command can do, said once: the row it is, and for the rows of write frames what their end on the
port does. Then the step and the queue. -/

namespace Sys2Proof.Machine

/-! ### The end of a write frame, whatever row brings it -/

/-- A request row either does not happen or is the end of the open write frame. -/
theorem endRequest_cases (r : Request) (p : Port) (s : State) :
    endRequest r (takingOf r) p s = s
      ∨ ∃ limit buffer, (s.ifaces.get p).frame = .receiving limit buffer
        ∧ endRequest r (takingOf r) p s = endReceiving p buffer s := by
  by_cases h : ∃ args, frameHolds p (requestCode r :: args) s
  · obtain ⟨args, limit, hf⟩ := h
    refine .inr ⟨limit, requestCode r :: args, hf, ?_⟩
    rw [endRequest_of_frame ⟨limit, hf⟩]
    simp only [endReceiving, requestOfCode_requestCode]
  · exact .inl (endRequest_of_no_frame (fun args ha => h ⟨args, ha⟩) _)

theorem unknownFrameEnds_cases (p : Port) (s : State) :
    unknownFrameEnds p s = s
      ∨ ∃ limit buffer, (s.ifaces.get p).frame = .receiving limit buffer
        ∧ unknownFrameEnds p s = endReceiving p buffer s := by
  unfold unknownFrameEnds
  split
  next limit c args hf =>
    split
    next hc => exact .inr ⟨limit, c :: args, hf, by simp only [endReceiving, hc]⟩
    next => exact .inl rfl
  all_goals exact .inl rfl

theorem emptyFrameEnds_cases (p : Port) (s : State) :
    emptyFrameEnds p s = s
      ∨ ∃ limit buffer, (s.ifaces.get p).frame = .receiving limit buffer
        ∧ emptyFrameEnds p s = endReceiving p buffer s := by
  unfold emptyFrameEnds
  split
  next limit hf => exact .inr ⟨limit, [], hf, rfl⟩
  all_goals exact .inl rfl

theorem readFrameEnds_cases (p : Port) (s : State) :
    readFrameEnds p s = s
      ∨ ∃ limit f, (s.ifaces.get p).frame = .sending limit f ∧ readFrameEnds p s = endSending p s := by
  unfold readFrameEnds
  split
  next limit f hf => exact .inr ⟨limit, f, hf, rfl⟩
  all_goals exact .inl rfl

theorem expireStall_cases (p : Port) (s : State) :
    expireStall p s = s
      ∨ (∃ limit buffer, (s.ifaces.get p).frame = .receiving limit buffer ∧ expireStall p s = endReceiving p [] s)
      ∨ ∃ limit f, (s.ifaces.get p).frame = .sending limit f ∧ expireStall p s = endSending p s := by
  unfold expireStall
  split
  next =>
    split
    next limit buffer hf => exact .inr (.inl ⟨limit, buffer, hf, rfl⟩)
    next limit f hf => exact .inr (.inr ⟨limit, f, hf, rfl⟩)
    next => exact .inl rfl
  next => exact .inl rfl

/-- What any command can leave of a state: one case for each operation of the blocks, the rows that end a frame
brought down to the end of that frame. -/
theorem exec_cases {P : State → Prop} {s t : State} {c : Instr}
    (stays : P s)
    (endReceiving : ∀ p limit buffer, (s.ifaces.get p).frame = .receiving limit buffer → ∀ held, held = buffer ∨ held = [] →
      P (endReceiving p held s))
    (endSending : ∀ p limit f, (s.ifaces.get p).frame = .sending limit f → P (endSending p s))
    (writeStart : ∀ p address, P (startFrame beginReceiving p address s))
    (readStart : ∀ p address, P (startFrame beginSending p address s))
    (tick : P (tickAll s))
    (holdExpiry : ∀ p, P (expireHold p s))
    (idleExpiry : ∀ p, P (expireIdle p s))
    (take : P (takeHead s))
    (digest : P (digestPage s))
    (publish : P (publishHead s))
    (reset : ∀ cause, c = .deviceReset cause → P (deviceReset cause s))
    (resetEnd : ∀ adr priv, P (deviceResetEnd adr priv s))
    (pollReady : ∀ left, P (pollReady left s))
    (pollTimeout : P (pollTimeout s))
    (eraseDone : ∀ left, P (eraseDone left s))
    (eraseExpiry : P (expireErase s))
    (programDone : ∀ left, P (programDone left s))
    (programExpiry : P (expireProgram s))
    (readback : ∀ received, P (readbackDone received s))
    (headers : P (headersRead s))
    (checked : P (entryChecked s))
    (installed : P (entryInstalled s))
    (received : ∀ p b, P (receiveClocked p b s))
    (sent : ∀ p b, P (sendClocked p b s))
    (h : exec c s = .next t) : P t := by
  have frameEnd : ∀ (p : Port) (u : State),
      (u = s ∨ ∃ limit buffer, (s.ifaces.get p).frame = .receiving limit buffer ∧ u = Machine.endReceiving p buffer s) →
      P u := by
    rintro p u (rfl | ⟨limit, buffer, hf, rfl⟩)
    · exact stays
    · exact endReceiving p limit buffer hf buffer (.inl rfl)
  have row : ∀ r p, exec (requestRow r p) s = .next t → P t := by
    intro r p h
    rw [exec_requestRow] at h
    cases h
    exact frameEnd p _ (endRequest_cases r p s)
  cases c with
  | deviceStatus p => exact row .deviceStatus p h
  | configure p => exact row .configure p h
  | portReset p => exact row .portReset p h
  | flagClear p => exact row .flagClear p h
  | snapOpen p => exact row .snapOpen p h
  | snapClose p => exact row .snapClose p h
  | stat p => exact row .stat p h
  | read p => exact row .read p h
  | scan p => exact row .scan p h
  | beginTxn p => exact row .beginTxn p h
  | create p => exact row .create p h
  | write p => exact row .write p h
  | resize p => exact row .resize p h
  | add p => exact row .add p h
  | delete p => exact row .delete p h
  | commit p => exact row .commit p h
  | abort p => exact row .abort p h
  | txnStatus p => exact row .txnStatus p h
  | watch p => exact row .watch p h
  | unwatch p => exact row .unwatch p h
  | eventPeek p => exact row .eventPeek p h
  | eventAck p => exact row .eventAck p h
  | checkpoint p => exact row .checkpoint p h
  | checkpointCancel p => exact row .checkpointCancel p h
  | unknownCodeFrame p => cases h; exact frameEnd p _ (unknownFrameEnds_cases p s)
  | emptyWriteFrame p => cases h; exact frameEnd p _ (emptyFrameEnds_cases p s)
  | writeFrameStart p a => cases h; exact writeStart p a
  | readFrameStart p a => cases h; exact readStart p a
  | readFrameEnd p =>
    cases h
    rcases readFrameEnds_cases p s with he | ⟨limit, f, hf, he⟩
    · rw [he]; exact stays
    · rw [he]; exact endSending p limit f hf
  | stallTimerExpiry p =>
    cases h
    rcases expireStall_cases p s with he | ⟨limit, buffer, hf, he⟩ | ⟨limit, f, hf, he⟩
    · rw [he]; exact stays
    · rw [he]; exact endReceiving p limit buffer hf [] (.inr rfl)
    · rw [he]; exact endSending p limit f hf
  | tick => cases h; exact tick
  | holdTimerExpiry p => cases h; exact holdExpiry p
  | idleTimerExpiry p => cases h; exact idleExpiry p
  | take => cases h; exact take
  | pageDigested => cases h; exact digest
  | publish => cases h; exact publish
  | deviceReset cause => cases h; exact reset cause rfl
  | deviceResetEnd adr priv => cases h; exact resetEnd adr priv
  | statusPollReady left => cases h; exact pollReady left
  | statusPollTimeout => cases h; exact pollTimeout
  | eraseDone left => cases h; exact eraseDone left
  | eraseTimerExpiry => cases h; exact eraseExpiry
  | programDone left => cases h; exact programDone left
  | programTimerExpiry => cases h; exact programExpiry
  | readbackDone received => cases h; exact readback received
  | loadHeadersRead => cases h; exact headers
  | loadEntryChecked => cases h; exact checked
  | loadEntryInstalled => cases h; exact installed
  | dataByteReceived p b => cases h; exact received p b
  | byteClockedOut p b => cases h; exact sent p b

theorem requestCode_of_some {r : Request} {c : Byte} (h : requestOfCode c = some r) : requestCode r = c :=
  beq_iff_eq.mp (List.find?_some (p := fun x => requestCode x == c) h)

/-- A write frame with this code and these bytes behind it has its declared length (R166, R167). -/
def Complete (r : Request) (args : List Byte) : Prop := declaredLength (requestCode r :: args) ≤ args.length + 1

/-- The end of a write frame: nothing but its end when it brought no byte, and otherwise a reply over what the judgement
of Table 8-2 leaves of the state. -/
theorem endReceiving_cases (p : Port) (buffer : List Byte) (s : State) :
    endReceiving p buffer s = closeFrame p s
      ∨ (∃ code a, endReceiving p buffer s = writeReply p code s.g a (judgedState p s))
      ∨ ∃ r args, Complete r args ∧ (s.image.device = .ready ∨ r = .deviceStatus)
        ∧ endReceiving p buffer s
          = writeReply p (requestCode r) s.g (takingOf r p args (judgedState p s)).2
              (takingOf r p args (judgedState p s)).1 := by
  cases buffer with
  | nil => exact .inl rfl
  | cons c args =>
    cases hc : requestOfCode c with
    | none =>
      refine .inr (.inl ⟨c, Answer.bare .unknown, ?_⟩)
      simp only [endReceiving, hc, endUnknown, endStream_closeFrame]
    | some r =>
      simp only [endReceiving, hc, endWriteFrame, endStream_closeFrame, judge]
      split
      next => exact .inr (.inl ⟨requestCode r, _, rfl⟩)
      next hlong =>
        split
        next => exact .inr (.inl ⟨requestCode r, _, rfl⟩)
        next hl =>
          have complete : Complete r args := by
            rw [Complete, requestCode_of_some hc]
            exact Nat.not_lt.mp hlong
          refine .inr (.inr ⟨r, args, complete, ?_, rfl⟩)
          by_cases hr : r = .deviceStatus
          · exact .inr hr
          · left
            cases hd : s.image.device with
            | ready => rfl
            | loading => exact absurd (by simp [loading, hd, hr]) hl

/-- What a step does: nothing on an empty queue, and otherwise the front command on the queue's rest. -/
theorem step_cases {s t : State} (h : step s = .next t) :
    t = s ∨ ∃ c rest, s.pending = c :: rest ∧ exec c { s with pending := rest } = .next t := by
  unfold step at h
  split at h
  · cases h
    exact .inl rfl
  next c rest hp => exact .inr ⟨c, rest, hp, h⟩

/-- Settles O1, from the definition of a step by the queue it finds. -/
theorem stepRunsFrontCommand : Obligations.StepRunsFrontCommand := by
  refine ⟨fun c rest s => rfl, fun s hs => ?_⟩
  simp only [step, hs]

end Sys2Proof.Machine
end

section
/-! SUPPORT. What keeps a port's notification state in order: each change settles the QUEUE flag and the line anew. -/

namespace Sys2Proof.Machine

theorem overflow_of_or_queue (f : FlagSet) : (f ||| flagQueue) &&& flagOverflow = f &&& flagOverflow := by
  revert f
  decide

theorem overflow_of_and_not_queue (f : FlagSet) : (f &&& ~~~flagQueue) &&& flagOverflow = f &&& flagOverflow := by
  revert f
  decide

theorem queue_of_or_queue (f : FlagSet) : (f ||| flagQueue) &&& flagQueue ≠ 0#6 := by
  revert f
  decide

theorem queue_of_and_not_queue (f : FlagSet) : (f &&& ~~~flagQueue) &&& flagQueue = 0#6 := by
  revert f
  decide

/-- Settling brings a notification state into order whose watches, queue and lost count are. -/
theorem Notify.settle_ok {n : Notify} (watchRoom : n.watches.length ≤ Config.maxWatches) (watchesDiffer : n.watches.Nodup)
    (watchTags : ∀ t ∈ n.watches, recordTag t = true) (queueRoom : n.queue.length ≤ Config.maxEvents)
    (entriesDiffer : (n.queue.map (fun e => (e.kind, e.tag))).Nodup) (lostBound : n.lost ≤ Config.maxLost)
    (lostFlag : n.lost = 0 ↔ n.flags &&& flagOverflow = 0#6) : n.settle.Ok := by
  by_cases hq : n.queue = []
  · have he : n.settle = { n with
        flags := n.flags &&& ~~~flagQueue, attnLow := (n.flags &&& ~~~flagQueue) &&& n.mask != 0#6 } := by
      simp only [settle, hq, List.isEmpty_nil, if_true]
    rw [he]
    exact ⟨watchRoom, watchesDiffer, watchTags, queueRoom, entriesDiffer, lostBound,
      by simpa only [overflow_of_and_not_queue] using lostFlag, by simp only [hq, queue_of_and_not_queue], by simp⟩
  · rw [settle_of_ne_nil hq]
    exact ⟨watchRoom, watchesDiffer, watchTags, queueRoom, entriesDiffer, lostBound,
      by simpa only [overflow_of_or_queue] using lostFlag, by simp only [hq, queue_of_or_queue], by simp⟩

theorem Event.coalesce_kind_tag (e x : Event) : ((e.coalesce x).kind, (e.coalesce x).tag) = (x.kind, x.tag) := by
  unfold coalesce
  split <;> rfl

theorem overflow_set_of_or (f : FlagSet) : (f ||| flagOverflow) &&& flagOverflow ≠ 0#6 := by
  revert f
  decide

theorem Notify.Ok.arrive {n : Notify} (h : n.Ok) (e : Event) : (n.arrive e).Ok := by
  unfold Notify.arrive
  split
  · refine settle_ok h.watchRoom h.watchesDiffer h.watchTags (by simpa using h.queueRoom) ?_ h.lostBound h.lostFlag
    rw [List.map_map]
    exact (List.map_congr_left (fun x _ => e.coalesce_kind_tag x)).symm ▸ h.entriesDiffer
  next hany =>
    split
    next hroom =>
      refine settle_ok h.watchRoom h.watchesDiffer h.watchTags (by simpa using hroom) ?_ h.lostBound h.lostFlag
      rw [List.map_append]
      refine h.entriesDiffer.append (List.nodup_singleton _) ?_
      simp only [List.map_cons, List.map_nil, List.disjoint_singleton, List.mem_map, Prod.mk.injEq, not_exists, not_and]
      intro x hx hk ht
      exact hany (List.any_eq_true.mpr ⟨x, hx, (e.sameAs_iff x).mpr ⟨hk, ht⟩⟩)
    next =>
      refine settle_ok h.watchRoom h.watchesDiffer h.watchTags h.queueRoom h.entriesDiffer ?_ ?_
      · show (if n.lost < Config.maxLost then n.lost + 1 else Config.maxLost) ≤ Config.maxLost
        split <;> omega
      · refine iff_of_false ?_ (overflow_set_of_or _)
        show ¬ (if n.lost < Config.maxLost then n.lost + 1 else Config.maxLost) = 0
        split
        · omega
        · decide

/-- A flag other than OVERFLOW leaves the OVERFLOW flag alone. -/
theorem overflow_of_or {f : FlagSet} (hf : f &&& flagOverflow = 0#6) (g : FlagSet) :
    (g ||| f) &&& flagOverflow = g &&& flagOverflow := by
  revert f g
  decide

theorem Notify.Ok.raise {n : Notify} (h : n.Ok) {f : FlagSet} (hf : f &&& flagOverflow = 0#6) : (n.raise f).Ok :=
  settle_ok h.watchRoom h.watchesDiffer h.watchTags h.queueRoom h.entriesDiffer h.lostBound
    (by simpa only [overflow_of_or hf] using h.lostFlag)

theorem overflow_of_clear (f g : FlagSet) : (f &&& ~~~(g &&& ~~~flagQueue)) &&& flagOverflow
    = if g &&& flagOverflow = 0#6 then f &&& flagOverflow else 0#6 := by
  revert f g
  decide

theorem Notify.Ok.clear {n : Notify} (h : n.Ok) (f : FlagSet) : (n.clear f).Ok := by
  refine settle_ok h.watchRoom h.watchesDiffer h.watchTags h.queueRoom h.entriesDiffer ?_ ?_
  · show (if f &&& flagOverflow = 0#6 then n.lost else 0) ≤ Config.maxLost
    split
    · exact h.lostBound
    · exact Nat.zero_le _
  · show (if f &&& flagOverflow = 0#6 then n.lost else 0) = 0 ↔ _
    simp only [overflow_of_clear]
    split
    · exact h.lostFlag
    · simp

theorem Notify.Ok.acknowledge {n : Notify} (h : n.Ok) (k : Nat) : (n.acknowledge k).Ok := by
  refine settle_ok h.watchRoom h.watchesDiffer h.watchTags ?_ ?_ h.lostBound h.lostFlag
  · exact (List.drop_sublist k n.queue).length_le.trans h.queueRoom
  · exact h.entriesDiffer.sublist ((List.drop_sublist k n.queue).map _)

theorem Notify.Ok.withMask {n : Notify} (h : n.Ok) (mask : FlagSet) : (n.withMask mask).Ok :=
  settle_ok h.watchRoom h.watchesDiffer h.watchTags h.queueRoom h.entriesDiffer h.lostBound h.lostFlag

theorem Notify.afterReset_ok : Notify.afterReset.Ok where
  watchRoom := by decide
  watchesDiffer := List.nodup_nil
  watchTags := fun t ht => absurd ht List.not_mem_nil
  queueRoom := by decide
  entriesDiffer := List.nodup_nil
  lostBound := by decide
  lostFlag := by decide
  queueFlag := by decide
  line := by decide

/-! ### Every port's notification state -/

theorem NotesOk.setNote {s : State} (h : NotesOk s) {p : Port} {n : Notify} (hn : n.Ok) : NotesOk (s.setNote p n) := by
  intro q
  by_cases hq : q = p
  · subst hq
    simpa using hn
  · simpa [hq] using h q

theorem NotesOk.mapPorts {s : State} (h : NotesOk s) {f : Port → Notify → Notify} (hf : ∀ p n, n.Ok → (f p n).Ok) :
    NotesOk { s with notes := s.notes.mapPorts f } := by
  intro q
  simpa using hf q _ (h q)

theorem NotesOk.deliver {s : State} (h : NotesOk s) (p : Port) (e : Event) {f : FlagSet}
    (hf : f &&& flagOverflow = 0#6) : NotesOk (deliver p e f s) :=
  h.setNote (((h p).arrive e).raise hf)

theorem NotesOk.deliverRecordEvent {s : State} (h : NotesOk s) (e : Event) : NotesOk (deliverRecordEvent e s) :=
  h.mapPorts fun _ n hn => by split; exacts [hn.arrive e, hn]

theorem NotesOk.deliverImageDone {s : State} (h : NotesOk s) (e : Event) : NotesOk (deliverImageDone e s) :=
  h.mapPorts fun _ n hn => by split; exacts [(hn.arrive e).raise (by decide), hn]

theorem NotesOk.raiseLoaded {s : State} (h : NotesOk s) : NotesOk (raiseLoaded s) :=
  h.mapPorts fun _ n hn => hn.raise (by decide)

end Sys2Proof.Machine
end

section
/-! SUPPORT. What each request can change when its block takes it: the requests of one block share one frame. -/

namespace Sys2Proof.Machine

/-! ### Staging requests: an accepted one changes the port's intents and the pool -/

theorem actCreate_frame {p : Port} {tag : Tag} {kind writers persist : Byte} {s t : State}
    (h : actCreate p tag kind writers persist s = .ok t) : ∃ intents, t = withIntents p intents s := by
  simp only [actCreate] at h
  split at h
  · split at h
    · split at h
      · cases h
      · cases h
      · split at h
        · cases h
        · split at h
          · cases h
          all_goals
            cases h
            exact ⟨_, rfl⟩
    · cases h
  · cases h

theorem claimBody_frame {p : Port} {tag : Tag} {start : Start} {change : Pool → StagedBody → Option (Pool × StagedBody)}
    {s t : State} (h : claimBody p tag start change s = .ok t) :
    ∃ pool intents, t = withIntents p intents { s with pool := pool } := by
  unfold claimBody at h
  split at h
  · cases h
  · cases h
    exact ⟨_, _, rfl⟩

theorem actWrite_inv {p : Port} {tag : Tag} {offset count : Nat} {data : List Byte} {s t : State}
    (h : actWrite p tag offset count data s = .ok t) :
    (recordTag tag = true ∧ 1 ≤ count ∧ count ≤ 64) ∧ ∃ start, findStart p tag s = .ok start
      ∧ (offset ≤ start.length ∧ offset + count ≤ 2048)
      ∧ claimBody p tag start (writeBody offset (data.take count)) s = .ok t := by
  simp only [actWrite] at h
  split at h
  next hargs =>
    split at h
    · cases h
    next start hstart =>
      split at h
      next hrange =>
        simp only [Bool.and_eq_true, decide_eq_true_eq, and_assoc] at hargs
        exact ⟨hargs, start, hstart, hrange, h⟩
      · cases h
  · cases h

theorem actResize_inv {p : Port} {tag : Tag} {length : Nat} {s t : State} (h : actResize p tag length s = .ok t) :
    (recordTag tag = true ∧ length ≤ 2048) ∧ ∃ start, findStart p tag s = .ok start
      ∧ claimBody p tag start (resizeBody length) s = .ok t := by
  simp only [actResize] at h
  split at h
  next hargs =>
    split at h
    · cases h
    next start hstart =>
      simp only [Bool.and_eq_true, decide_eq_true_eq] at hargs
      exact ⟨hargs, start, hstart, h⟩
  · cases h

theorem actAdd_frame {p : Port} {tag : Tag} {delta : Int} {s t : State}
    (h : actAdd p tag delta s = .ok t) : ∃ intents, t = withIntents p intents s := by
  simp only [actAdd] at h
  split at h
  · split at h
    · cases h; exact ⟨_, rfl⟩
    · cases h; exact ⟨_, rfl⟩
    · cases h
    · cases h
    · cases h
    · split at h
      · cases h
      · split at h
        · cases h
        · cases h
        · split at h
          · split at h
            · cases h; exact ⟨_, rfl⟩
            · cases h
          · cases h
          · cases h
  · cases h

theorem actDelete_frame {p : Port} {tag : Tag} {s t : State}
    (h : actDelete p tag s = .ok t) : ∃ pool intents, t = withIntents p intents { s with pool := pool } := by
  simp only [actDelete] at h
  split at h
  · split at h
    · cases h; exact ⟨_, _, rfl⟩
    · cases h; exact ⟨s.pool, _, rfl⟩
    · cases h; exact ⟨_, _, rfl⟩
    · cases h
    · split at h
      · cases h
      · split at h
        · cases h
        · cases h
        · split at h
          · split at h
            · cases h; exact ⟨s.pool, _, rfl⟩
            · cases h
          · cases h
  · cases h

/-- A staging request whose effect changes the intents and the pool changes the context and the pool. -/
theorem staging_frame {p : Port} {act : Except Refused State} {s : State}
    (h : ∀ t, act = .ok t → ∃ pool intents, t = withIntents p intents { s with pool := pool }) :
    ∃ pool ctx, (staging p act s).1 = { s with pool := pool }.setTxn p ctx := by
  have still : ∃ pool ctx, s = { s with pool := pool }.setTxn p ctx := ⟨s.pool, _, (State.setTxn_get s p).symm⟩
  unfold staging
  split
  · exact still
  · split
    next t =>
      obtain ⟨pool, intents, rfl⟩ := h t rfl
      exact ⟨pool, _, State.setTxn_setTxn ..⟩
    · exact ⟨s.pool, _, rfl⟩
    · exact ⟨s.pool, _, rfl⟩
  all_goals exact still

/-! ### The frame of each request -/

/-- The requests of the transaction unit. -/
def txnRequests : List Request := [.beginTxn, .create, .write, .resize, .add, .delete, .commit, .abort, .txnStatus]

/-- A request of the transaction unit changes its port's context, the commit queue and the pool alone. -/
theorem takingOf_txn_frame {r : Request} (hr : r ∈ txnRequests) (p : Port) (args : List Byte) (s : State) :
    ∃ pool queue ctx, (takingOf r p args s).1 = { s with pool := pool, commitQueue := queue }.setTxn p ctx := by
  have still : ∃ pool queue ctx, s = { s with pool := pool, commitQueue := queue }.setTxn p ctx :=
    ⟨s.pool, s.commitQueue, _, (State.setTxn_get s p).symm⟩
  have staged : ∀ act, (∀ t, act = .ok t → ∃ pool intents, t = withIntents p intents { s with pool := pool }) →
      ∃ pool queue ctx, (staging p act s).1 = { s with pool := pool, commitQueue := queue }.setTxn p ctx := by
    intro act h
    obtain ⟨pool, ctx, he⟩ := staging_frame h
    exact ⟨pool, s.commitQueue, ctx, he⟩
  cases r with
  | beginTxn =>
    show ∃ pool queue ctx, (takeBegin p s).1 = _
    simp only [takeBegin]
    split
    · exact ⟨s.pool, s.commitQueue, _, rfl⟩
    · exact ⟨s.pool, s.commitQueue, _, rfl⟩
    all_goals exact still
  | create =>
    refine staged _ fun t h => ?_
    obtain ⟨intents, rfl⟩ := actCreate_frame h
    exact ⟨s.pool, intents, rfl⟩
  | write =>
    refine staged _ fun t h => ?_
    obtain ⟨-, start, -, -, hclaim⟩ := actWrite_inv h
    exact claimBody_frame hclaim
  | resize =>
    refine staged _ fun t h => ?_
    obtain ⟨-, start, -, hclaim⟩ := actResize_inv h
    exact claimBody_frame hclaim
  | add =>
    refine staged _ fun t h => ?_
    obtain ⟨intents, rfl⟩ := actAdd_frame h
    exact ⟨s.pool, intents, rfl⟩
  | delete => exact staged _ fun t h => actDelete_frame h
  | commit =>
    show ∃ pool queue ctx, (takeCommit p s).1 = _
    simp only [takeCommit]
    split
    · exact still
    · split
      · exact ⟨s.pool, s.commitQueue, _, rfl⟩
      · exact ⟨s.pool, _, _, rfl⟩
    all_goals exact still
  | abort =>
    show ∃ pool queue ctx, (takeAbort p s).1 = _
    simp only [takeAbort]
    split
    · exact still
    · exact ⟨_, s.commitQueue, _, rfl⟩
    · exact ⟨_, _, _, rfl⟩
    all_goals exact still
  | txnStatus =>
    show ∃ pool queue ctx, (takeTxnStatus p s).1 = _
    simp only [takeTxnStatus]
    split
    · exact ⟨s.pool, s.commitQueue, _, rfl⟩
    all_goals exact still
  | _ => simp [txnRequests] at hr

/-- What each request can leave of the state it is taken on. -/
theorem takingOf_cases {P : State → Prop} {p : Port} {s : State} (r : Request) (args : List Byte)
    (stays : P s)
    (notes : ∀ n, ((s.notes.get p).Ok → n.Ok) → P (s.setNote p n))
    (stream : ∀ x, P (s.setIface p { s.ifaces.get p with stream := x }))
    (configured : ∀ (config : PortConfig) mask, config.Ok → P (setConfig p config mask s))
    (snapOpen : P (takeSnapOpen p s).1)
    (snapClose : P (releaseBinding p s))
    (txn : r ∈ txnRequests → P (takingOf r p args s).1)
    (portReset : P (takePortReset p s).1)
    (checkpoint : P (takeCheckpoint p s).1)
    (cancel : P (takeCheckpointCancel p s).1) : P (takingOf r p args s).1 := by
  cases r with
  | deviceStatus => exact stays
  | configure =>
    show P (takeConfigure _ _ _ _ _ _).1
    simp only [takeConfigure]
    split
    next h =>
      obtain ⟨hi, hh, hl, hu, -⟩ := (configInRange_iff ..).mp h
      exact configured _ _ ⟨hi, hh, hl, hu⟩
    next => exact stays
  | portReset => exact portReset
  | flagClear =>
    show P (takeFlagClear _ _ _).1
    simp only [takeFlagClear]
    split
    · exact notes _ (·.clear _)
    · exact stays
  | snapOpen => exact snapOpen
  | snapClose => exact snapClose
  | stat => exact stays
  | read =>
    show P (takeRead _ _ _ _).1
    simp only [takeRead]
    split
    · exact stream _
    · exact stays
  | scan => exact stream _
  | watch =>
    show P (takeWatch _ _ _).1
    simp only [takeWatch]
    split
    next htag =>
      split
      · exact stays
      next hmem =>
        split
        · exact stays
        next hroom =>
          refine notes _ fun hok => ?_
          exact { hok with
            watchRoom := by simpa using Nat.lt_of_not_le hroom
            watchesDiffer := hok.watchesDiffer.append (List.nodup_singleton _) (by simpa using hmem)
            watchTags := by simpa [or_imp, forall_and, htag] using hok.watchTags }
    next => exact stays
  | unwatch =>
    show P (takeUnwatch _ _ _).1
    simp only [takeUnwatch]
    split
    · exact notes _ fun hok => { hok with
        watchRoom := Nat.zero_le _, watchesDiffer := List.nodup_nil, watchTags := fun t ht => absurd ht List.not_mem_nil }
    · split
      · exact notes _ fun hok => { hok with
          watchRoom := (List.length_filter_le ..).trans hok.watchRoom
          watchesDiffer := hok.watchesDiffer.filter _
          watchTags := fun t ht => hok.watchTags t (List.mem_of_mem_filter ht) }
      · exact stays
  | eventPeek => exact stays
  | eventAck => exact notes _ (·.acknowledge _)
  | checkpoint => exact checkpoint
  | checkpointCancel => exact cancel
  | beginTxn | create | write | resize | add | delete | commit | abort | txnStatus =>
    exact txn (by simp [txnRequests])

end Sys2Proof.Machine
end

section
/-! SUPPORT. What the happenings of the engine, the flash and the load can leave, each said once: the conditions under
which it happens, and the operation that it then is. -/

namespace Sys2Proof.Machine

/-! ### The states that an operation starts from -/

/-- The state on which TAKE validates the head (R97): the queue's rest, the head's context APPLYING. -/
abbrev takenState (p : Port) (rest : List Port) (s : State) : State :=
  { s with commitQueue := rest }.setTxn p { s.txns.get p with state := .applying }

/-- The state once an operation running in the flash has ended (R138 to R140). -/
abbrev settledState (left : Option (List Byte)) (s : State) : State := { s with flash := s.flash.settle left }

/-- The state on which a SAVED checkpoint ends: the target current, the sequence one higher (R155). -/
abbrev savedState (c : Checkpoint) (s : State) : State :=
  { s with image := { s.image with current := some c.target, sequence := s.image.sequence + 1#32 } }

variable {P : State → Prop} {s : State}

/-! ### Timers and slots of a port -/

theorem expireHold_of {p : Port} (stays : P s)
    (defers : ∀ g limit f, (s.snaps.get p).state = .held g → (s.snaps.get p).hold = some 0 →
      (s.ifaces.get p).frame = .sending limit f → P (s.setSnap p ⟨.held g, none, true⟩))
    (lapses : ∀ g, (s.snaps.get p).state = .held g → (s.snaps.get p).hold = some 0 → readFrameOpen p s = false →
      P (lapse p g s)) : P (expireHold p s) := by
  obtain ⟨hnot, hother, hdue⟩ := expireHold_cases p s
  by_cases hh : (s.snaps.get p).hold = some 0
  · cases hs : (s.snaps.get p).state with
    | held g =>
      obtain ⟨hopen, hclosed⟩ := hdue g hs hh
      cases hr : readFrameOpen p s with
      | true =>
        rw [hopen hr]
        unfold readFrameOpen at hr
        split at hr
        next limit f hf => exact defers g limit f hs hh hf
        all_goals cases hr
      | false => rw [hclosed hr]; exact lapses g hs hh hr
    | free | frame _ | lapsed => rw [hother (fun g hg => by rw [hs] at hg; cases hg)]; exact stays
  · rw [hnot hh]; exact stays

theorem expireIdle_of {p : Port} (stays : P s)
    (ends : (s.txns.get p).state = .opened → (s.txns.get p).idle = some 0 →
      P (deliver p ⟨.txnTimeout, 0#16, 0#32, .outcome .timedOut⟩ flagTxnEnded (discardTxn p .timedOut s))) :
    P (expireIdle p s) := by
  simp only [expireIdle]
  split
  next ho =>
    split
    next hd => exact ends ho ((Timer.due_iff _).mp hd)
    next => exact stays
  all_goals exact stays

/-- The end of a read frame by the slot that it leaves. -/
theorem endSending_of {p : Port}
    (frees : ∀ g, (s.snaps.get p).state = .frame g → P (retireOnRelease (freeSlot p (closeFrame p s))))
    (lapses : ∀ g, (s.snaps.get p).state = .held g → (s.snaps.get p).lapsePending = true →
      P (lapse p g (closeFrame p s)))
    (stays : (∀ g, (s.snaps.get p).state ≠ .frame g) → (s.snaps.get p).lapsePending = false
      ∨ (∀ g, (s.snaps.get p).state ≠ .held g) → P (closeFrame p s)) : P (endSending p s) := by
  have hsnap : (closeFrame p s).snaps = s.snaps := rfl
  simp only [endSending, hsnap]
  split
  next g hs => exact frees g hs
  next g hs =>
    split
    next hl => exact lapses g hs hl
    next hl => exact stays (fun g' h => by rw [hs] at h; cases h) (.inl (by simpa using hl))
  next hs => exact stays (fun g' h => by rw [hs] at h; cases h) (.inr fun g' h => by rw [hs] at h; cases h)
  next hs => exact stays (fun g' h => by rw [hs] at h; cases h) (.inr fun g' h => by rw [hs] at h; cases h)

/-- The release of a binding: the slot FREE, with retirement unless it was FREE already. -/
theorem releaseBinding_of {p : Port} (free : (s.snaps.get p).state = .free → P (freeSlot p s))
    (released : (s.snaps.get p).state ≠ .free → P (retireOnRelease (freeSlot p s))) : P (releaseBinding p s) := by
  unfold releaseBinding
  split
  next h => exact free h
  next h => exact released (by simp [h])
  next h => exact released (by simp [h])
  next h => exact released (by simp [h])

/-! ### The commit engine -/

theorem takeHead_of (stays : P s)
    (rejects : ∀ p rest o, s.engine = .idle → s.commitQueue = p :: rest →
      validate s (s.txns.get p).intents = some o →
      P (rejectTxn p o (takenState p rest s)))
    (reserves : ∀ p rest, s.engine = .idle → s.commitQueue = p :: rest → validate s (s.txns.get p).intents = none →
      P (reserveTxn p (takenState p rest s))) :
    P (takeHead s) := by
  unfold takeHead
  split
  next p rest he hq =>
    have hv : ∀ intents, validate (takenState p rest s) intents = validate s intents := fun _ => rfl
    simp only [hv, State.setTxn_txns, PortMap.get_set_self]
    split
    next o ho => exact rejects p rest o he hq ho
    next ho => exact reserves p rest he hq ho
  all_goals exact stays

theorem digestPage_of (stays : P s)
    (feeds : ∀ c, s.engine = .digesting c → P { s with engine := .digesting (c.digestPage s.pool) }) :
    P (digestPage s) := by
  unfold digestPage
  split
  · exact stays
  next c hc => exact feeds c hc

theorem publishHead_of (stays : P s)
    (publishes : ∀ c, s.engine = .digesting c → c.todo = [] → P (publishCommit c s)) : P (publishHead s) := by
  unfold publishHead
  split
  · exact stays
  next c hc =>
    split
    next ht => exact publishes c hc (List.isEmpty_iff.mp ht)
    next => exact stays

/-! ### The flash and the checkpoint -/

theorem pollReady_of {left : Option (List Byte)} (stays : P s)
    (loads : ∀ timer, s.image.op = .poll .loadRead timer → P (sendLoadRead (settledState left s)))
    (readsBack : ∀ addr data timer, s.image.op = .poll (.readback addr data) timer →
      P { s with flash := s.flash.settle left, image := { s.image with op := .readback addr data } })
    (erases : ∀ timer c, s.image.op = .poll .erase timer → s.image.checkpoint = some c →
      P (sendErase c (settledState left s)))
    (programs : ∀ timer c, s.image.op = .poll .program timer → s.image.checkpoint = some c →
      P (sendProgram c (settledState left s))) : P (pollReady left s) := by
  unfold pollReady
  split
  next after timer hop =>
    cases after with
    | loadRead => exact loads timer hop
    | readback addr data => exact readsBack addr data timer hop
    | erase =>
      cases hc : s.image.checkpoint with
      | none => simpa only [hc] using stays
      | some c => simpa only [hc] using erases timer c hop hc
    | program =>
      cases hc : s.image.checkpoint with
      | none => simpa only [hc] using stays
      | some c => simpa only [hc] using programs timer c hop hc
  next => exact stays

theorem pollTimeout_of (stays : P s)
    (load : ∀ timer, s.image.op = .poll .loadRead timer → s.image.loader = .header0 →
      P (endLoad (.empty .noImage) none 0#32 s))
    (fails : ∀ after timer c, s.image.op = .poll after timer → after ≠ .loadRead → s.image.checkpoint = some c →
      P (endCheckpoint (.failed (stageCause c)) s)) : P (pollTimeout s) := by
  have hload : ∀ timer, s.image.op = .poll .loadRead timer → P (failLoadPoll s) := by
    intro timer hop
    unfold failLoadPoll
    split
    next hl => exact load timer hop hl
    all_goals exact stays
  unfold pollTimeout
  split
  next after timer hop =>
    split
    · split
      · exact hload timer hop
      next other _ _ c hn hc => exact fails other timer c hop hn hc
      · exact stays
    · exact stays
  next => exact stays

theorem eraseDone_of {left : Option (List Byte)} (stays : P s)
    (ends : ∀ addr timer c, s.image.op = .erase addr timer → s.image.checkpoint = some c →
      P (eraseEnded c (settledState left s))) : P (eraseDone left s) := by
  unfold eraseDone
  split
  next addr timer c hop hc => exact ends addr timer c hop hc
  next => exact stays

theorem expireErase_of (stays : P s)
    (ends : ∀ addr timer, s.image.op = .erase addr timer → P (endCheckpoint (.failed .eraseTimeout) s)) :
    P (expireErase s) := by
  unfold expireErase
  split
  next addr timer hop =>
    split
    · exact ends addr timer hop
    · exact stays
  next => exact stays

theorem programDone_of {left : Option (List Byte)} (stays : P s)
    (ends : ∀ addr data timer, s.image.op = .program addr data timer →
      P { s with flash := s.flash.settle left, image := { s.image with op := pollFor (.readback addr data) } }) :
    P (programDone left s) := by
  unfold programDone
  split
  next addr data timer hop => exact ends addr data timer hop
  next => exact stays

theorem expireProgram_of (stays : P s)
    (ends : ∀ addr data timer, s.image.op = .program addr data timer →
      P (endCheckpoint (.failed .programTimeout) s)) : P (expireProgram s) := by
  unfold expireProgram
  split
  next addr data timer hop =>
    split
    · exact ends addr data timer hop
    · exact stays
  next => exact stays

theorem readbackDone_of {received : Option (List Byte)} (stays : P s)
    (verified : ∀ addr data c, s.image.op = .readback addr data → s.image.checkpoint = some c → P (unitVerified c s))
    (fails : ∀ addr data c, s.image.op = .readback addr data → s.image.checkpoint = some c →
      P (endCheckpoint (.failed .verify) s)) : P (readbackDone received s) := by
  unfold readbackDone
  split
  next addr data hop =>
    unfold readbackEnded
    split
    · exact stays
    next c hc =>
      split
      · exact verified addr data c hop hc
      · exact fails addr data c hop hc
  next => exact stays

/-- The end of a sector's erase moves the checkpoint on, each stage with its poll. -/
theorem eraseEnded_of {c : Checkpoint} (stays : P s)
    (advances : ∀ k, c.stage = .erasing k → k + 1 < 16 →
      P (withCheckpoint { c with stage := .erasing (k + 1) } (pollFor .erase) s))
    (seals : ∀ k, c.stage = .erasing k → checkpointRecords s = [] →
      P (withCheckpoint { c with stage := .sealing } (pollFor .program) s))
    (writes : ∀ k, c.stage = .erasing k → checkpointRecords s ≠ [] →
      P (withCheckpoint { c with stage := .writing 0 0x0000#16 } (pollFor .program) s)) : P (eraseEnded c s) := by
  unfold eraseEnded
  split
  next k hk =>
    split
    next hlt => exact advances k hk hlt
    next =>
      split
      next he => exact seals k hk (List.isEmpty_iff.mp he)
      next he => exact writes k hk (mt List.isEmpty_iff.mpr he)
  all_goals exact stays

/-- A verified unit moves the checkpoint on or ends it SAVED. -/
theorem unitVerified_of {c : Checkpoint} (stays : P s)
    (advances : ∀ u position, c.stage = .writing u position → 256 * (u + 1) < streamLength (checkpointRecords s) →
      P (withCheckpoint { c with stage := .writing (u + 1) position } (pollFor .program) s))
    (seals : ∀ u position, c.stage = .writing u position → streamLength (checkpointRecords s) ≤ 256 * (u + 1) →
      P (withCheckpoint { c with stage := .sealing } (pollFor .program) s))
    (saved : c.stage = .sealing → P (endCheckpoint .saved (savedState c s))) : P (unitVerified c s) := by
  unfold unitVerified
  split
  next u position hu =>
    split
    next hlt => exact advances u position hu hlt
    next hle => exact seals u position hu (Nat.not_lt.mp hle)
  next h => exact saved h
  next => exact stays

/-! ### The load -/

theorem trySlots_of (rejected : P (endLoad (.empty .rejected) none 0#32 s))
    (loaded : ∀ i h others, P (endLoadWith .loaded (firstEntry i h others) s))
    (checks : ∀ i h others, P (checkAt (firstEntry i h others) s)) (slots : List (ImageSlot × ImageHeader)) :
    P (trySlots s slots) := by
  induction slots with
  | nil => exact rejected
  | cons x others ih =>
    obtain ⟨i, h⟩ := x
    rw [trySlots]
    split
    · split
      · exact loaded i h others
      · exact ih
    · exact checks i h others

theorem headersRead_of (stays : P s)
    (noImage : s.image.loader = .header1 → s.image.op = .loadRead → P (endLoad (.empty .noImage) none 0#32 s))
    (tries : s.image.loader = .header1 → s.image.op = .loadRead → ∀ slots, P (trySlots s slots)) :
    P (headersRead s) := by
  unfold headersRead
  split
  next hl hop =>
    split
    · exact noImage hl hop
    · exact tries hl hop _
  next => exact stays

theorem entryChecked_of (stays : P s)
    (tries : ∀ c, s.image.loader = .checking c → s.image.op = .loadRead ∨ s.image.op = .none → ∀ slots, P (trySlots s slots))
    (advances : ∀ c e, s.image.loader = .checking c → s.image.op = .loadRead ∨ s.image.op = .none →
      readEntry s.flash c.slot c.offset = some e → P (checkAt (c.pass e) s))
    (installs : ∀ c, s.image.loader = .checking c → s.image.op = .loadRead ∨ s.image.op = .none →
      P (installNext (firstEntry c.slot c.header c.others) s)) : P (entryChecked s) := by
  have hcheck : ∀ c, s.image.loader = .checking c → s.image.op = .loadRead ∨ s.image.op = .none →
      P (checkEntry c s) := by
    intro c hl hop
    simp only [checkEntry]
    split
    · exact tries c hl hop _
    next e he =>
      split
      · split
        · exact advances c e hl hop he
        · split
          · exact installs c hl hop
          · exact tries c hl hop _
      · exact tries c hl hop _
  unfold entryChecked
  split
  next c hl hop => exact hcheck c hl (.inl hop)
  next c hl hop => exact hcheck c hl (.inr hop)
  next => exact stays

theorem entryInstalled_of (stays : P s)
    (stops : ∀ c, s.image.loader = .installing c → s.image.op = .loadRead ∨ s.image.op = .none →
      P (endLoadWith .stoppedPartial c s))
    (advances : ∀ c e t, s.image.loader = .installing c → s.image.op = .loadRead ∨ s.image.op = .none →
      readEntry s.flash c.slot c.offset = some e → installEntry e s = some t → P (installNext (c.pass e) t))
    (loads : ∀ c e t, s.image.loader = .installing c → s.image.op = .loadRead ∨ s.image.op = .none →
      readEntry s.flash c.slot c.offset = some e → installEntry e s = some t → P (endLoadWith .loaded c t)) :
    P (entryInstalled s) := by
  have hinstall : ∀ c, s.image.loader = .installing c → s.image.op = .loadRead ∨ s.image.op = .none →
      P (installAt c s) := by
    intro c hl hop
    simp only [installAt]
    split
    · exact stops c hl hop
    next e he =>
      split
      · exact stops c hl hop
      next t ht =>
        split
        · exact advances c e t hl hop he ht
        · exact loads c e t hl hop he ht
  unfold entryInstalled
  split
  next c hl hop => exact hinstall c hl (.inl hop)
  next c hl hop => exact hinstall c hl (.inr hop)
  next => exact stays

/-- An entry that the load installs changes the directory and the pool. -/
theorem installEntry_inv {e : LoadEntry} {t : State} (h : installEntry e s = some t) :
    freeSlots s ≠ 0 ∧ freeEntries s ≠ 0 ∧ chainOf s.directory e.tag = []
      ∧ ∃ content pool, loadContent e s.pool = some (content, pool)
        ∧ t = { s with directory := install s.directory e.tag ⟨1#32, content⟩, pool := pool } := by
  unfold installEntry at h
  split at h
  · cases h
  next hroom =>
    simp only [Bool.or_eq_true, decide_eq_true_eq, Bool.not_eq_true', not_or, Bool.not_eq_false] at hroom
    obtain ⟨⟨hs, he⟩, hc⟩ := hroom
    split at h
    · cases h
    next content pool hl =>
      cases h
      exact ⟨hs, he, List.isEmpty_iff.mp hc, content, pool, hl, rfl⟩

/-! ### Bytes of a frame -/

/-- What a byte clocked on a write frame leaves: nothing, the stall timer's reload, or the byte stored. -/
theorem receiveClocked_of {p : Port} {b : Clocked Byte} (stays : P s)
    (reloads : ∀ limit buffer bus, (s.ifaces.get p).frame = .receiving limit buffer →
      P (s.setIface p { s.ifaces.get p with stall := Timer.load limit, bus := bus }))
    (stores : ∀ limit buffer x, (s.ifaces.get p).frame = .receiving limit buffer → buffer.length < declaredLength buffer →
      P (s.setIface p { s.ifaces.get p with
        frame := .receiving limit (buffer ++ [x]), stall := Timer.load limit, bus := .acknowledged })) :
    P (receiveClocked p b s) := by
  unfold receiveClocked
  split
  next x _ _ =>
    simp only [receiveByte]
    split
    next limit buffer hf =>
      split
      next hlt => exact stores limit buffer _ hf hlt
      next => exact reloads limit buffer _ hf
    all_goals exact stays
  next _ limit buffer hf =>
    rw [(clockEdge_cases p s).1 limit (.inl ⟨buffer, hf⟩)]
    exact reloads limit buffer (s.ifaces.get p).bus hf
  all_goals exact stays

/-- What a byte clocked out of a read frame leaves: nothing, the stall timer's reload, or the byte sent. -/
theorem sendClocked_of {p : Port} {a : Clocked Bool} (stays : P s)
    (reloads : ∀ limit f bus, (s.ifaces.get p).frame = .sending limit f →
      P (s.setIface p { s.ifaces.get p with stall := Timer.load limit, bus := bus }))
    (sends : ∀ limit f silent, (s.ifaces.get p).frame = .sending limit f →
      P (s.setIface p { s.ifaces.get p with
        frame := .sending limit { f with sent := f.sent + 1, silent := silent }
        stall := Timer.load limit
        bus := .sent (frameByte s (s.ifaces.get p) f).1
        stream := (frameByte s (s.ifaces.get p) f).2 })) :
    P (sendClocked p a s) := by
  unfold sendClocked
  split
  next x _ =>
    simp only [sendByte]
    split
    next limit f hf =>
      split
      · exact reloads limit f _ hf
      · exact sends limit f _ hf
    all_goals exact stays
  next _ limit f hf =>
    rw [(clockEdge_cases p s).1 limit (.inr ⟨f, hf⟩)]
    exact reloads limit f (s.ifaces.get p).bus hf
  all_goals exact stays

end Sys2Proof.Machine
end

section
/-! SUPPORT. The notification invariant under every command, and the statement about it. -/

namespace Sys2Proof.Machine

variable {s t : State}

theorem NotesOk.of_notes (h : NotesOk s) (e : t.notes = s.notes) : NotesOk t := fun p => e ▸ h p

theorem NotesOk.endCheckpoint (h : NotesOk s) (r : ImageResult) : NotesOk (endCheckpoint r s) :=
  NotesOk.deliverImageDone (h.of_notes rfl) _

theorem NotesOk.endLoad (h : NotesOk s) (r : LoadResult) (current : Option ImageSlot) (sequence : Gen) :
    NotesOk (endLoad r current sequence s) :=
  NotesOk.raiseLoaded (h.of_notes rfl)

theorem NotesOk.lapse (h : NotesOk s) (p : Port) (g : Gen) : NotesOk (lapse p g s) :=
  NotesOk.deliver (h.of_notes rfl) p _ (by decide)

theorem NotesOk.expireHold (h : NotesOk s) (p : Port) : NotesOk (expireHold p s) :=
  expireHold_of h (fun _ _ _ _ _ _ => h.of_notes rfl) (fun g _ _ _ => h.lapse p g)

theorem releaseBinding_notes (p : Port) (s : State) : (releaseBinding p s).notes = s.notes :=
  releaseBinding_of (P := fun t => t.notes = s.notes) (fun _ => rfl) (fun _ => rfl)

theorem resetTxn_notes (p : Port) (s : State) : (resetTxn p s).notes = s.notes := by
  unfold resetTxn
  dsimp only
  split <;> rfl

theorem NotesOk.takingOf (h : NotesOk s) (r : Request) (p : Port) (args : List Byte) :
    NotesOk (takingOf r p args s).1 := by
  refine takingOf_cases r args h (fun n hn => h.setNote (hn (h p))) (fun _ => h.of_notes rfl)
    (fun _ _ _ => NotesOk.setNote (h.of_notes rfl) ((h p).withMask _)) ?_ (h.of_notes (releaseBinding_notes p s)) ?_ ?_
    ?_ ?_
  · exact h.of_notes (releaseBinding_notes p s)
  · intro hr
    obtain ⟨pool, queue, ctx, he⟩ := takingOf_txn_frame hr p args s
    exact h.of_notes (by rw [he]; rfl)
  · refine NotesOk.of_notes (s := resetNote p (releaseBinding p (resetTxn p s))) ?_ rfl
    exact NotesOk.setNote (h.of_notes ((releaseBinding_notes ..).trans (resetTxn_notes ..))) Notify.afterReset_ok
  · unfold takeCheckpoint
    split
    · split
      · exact h
      · split
        · exact h
        · exact h.of_notes rfl
    · exact h
  · unfold takeCheckpointCancel
    split
    · split
      · exact h
      · split
        · exact h.endCheckpoint _
        · exact h.endCheckpoint _
        · exact h
    · exact h

theorem NotesOk.endReceiving (h : NotesOk s) (p : Port) (buffer : List Byte) : NotesOk (endReceiving p buffer s) := by
  rcases endReceiving_cases p buffer s with he | ⟨code, a, he⟩ | ⟨r, args, -, -, he⟩
  · exact he ▸ h.of_notes rfl
  · exact he ▸ h.of_notes rfl
  · have ht : NotesOk (Machine.takingOf r p args (judgedState p s)).1 := NotesOk.takingOf (s := judgedState p s) h r p args
    exact he ▸ ht.of_notes rfl

theorem NotesOk.endSending (h : NotesOk s) (p : Port) : NotesOk (endSending p s) :=
  endSending_of (fun _ _ => h.of_notes rfl) (fun g _ _ => NotesOk.lapse (h.of_notes rfl) p g) (fun _ _ => h.of_notes rfl)

theorem NotesOk.startFrame (h : NotesOk s) {begins : Port → State → State} {p : Port}
    (hb : ∀ u, NotesOk u → NotesOk (begins p u)) (address : BitVec 7) : NotesOk (startFrame begins p address s) := by
  have ho : NotesOk (endOpenFrame p s) := by
    unfold endOpenFrame
    split
    · exact h
    · exact h.endReceiving p _
    · exact h.endSending p
  simp only [Machine.startFrame]
  split
  · exact h
  · split
    · exact (hb _ ho).of_notes rfl
    · exact ho.of_notes rfl

theorem NotesOk.beginSending (h : NotesOk s) (p : Port) : NotesOk (beginSending p s) := by
  have hb : ∀ u streaming, (bindSlot p streaming u).notes = u.notes := by
    intro u streaming
    simp only [bindSlot]
    split
    · rfl
    · split <;> rfl
    all_goals rfl
  exact (NotesOk.of_notes (h.expireHold p) (hb _ _)).of_notes rfl

theorem installIntent_notes (p : Port) (done : List (Tag × Crc)) (intents : List Intent) (s : State) :
    (intents.foldl (installIntent p done) s).notes = s.notes := by
  induction intents generalizing s with
  | nil => rfl
  | cons i rest ih => exact ih _

theorem NotesOk.deliverRecordEvents (h : NotesOk s) (intents : List Intent) :
    NotesOk (intents.foldl (fun t i => Machine.deliverRecordEvent (recordEvent t.g i) t) s) := by
  induction intents generalizing s with
  | nil => exact h
  | cons i rest ih => exact ih (NotesOk.deliverRecordEvent h _)

theorem NotesOk.publishCommit (h : NotesOk s) (c : Commit) : NotesOk (publishCommit c s) := by
  have hretired : ∀ tags u, NotesOk u → NotesOk (retireOnPublish tags u) := fun _ _ hu => hu.of_notes rfl
  have htold : ∀ u, NotesOk u → NotesOk (endCommitter c.port u) := by
    intro u hu
    simp only [endCommitter]
    split
    · exact NotesOk.deliver (hu.of_notes rfl) _ _ (by decide)
    all_goals exact hu
  refine NotesOk.of_notes (NotesOk.deliverRecordEvents (htold _ (hretired _ _ ?_)) _) rfl
  exact h.of_notes (installIntent_notes ..)

/-- Every command keeps the notification state of every port in order. -/
theorem NotesOk.exec (h : NotesOk s) {c : Instr} (hc : exec c s = .next t) : NotesOk t := by
  have checkpoint : ∀ u : State, u.notes = s.notes → NotesOk u := fun u hu => h.of_notes hu
  have slots : ∀ slots, NotesOk (trySlots s slots) :=
    trySlots_of (h.endLoad _ _ _) (fun _ _ _ => h.endLoad _ _ _) (fun _ _ _ => h.of_notes rfl)
  refine exec_cases h ?endReceiving ?endSending ?writeStart ?readStart ?tick ?holdExpiry ?idleExpiry ?take ?digest
    ?publish ?reset ?resetEnd ?pollReady ?pollTimeout ?eraseDone ?eraseExpiry ?programDone ?programExpiry ?readback
    ?headers ?checked ?installed ?received ?sent hc
  case endReceiving => exact fun p _ _ _ held _ => h.endReceiving p held
  case endSending => exact fun p _ _ _ => h.endSending p
  case writeStart => exact fun p a => h.startFrame (fun u hu => hu.of_notes rfl) a
  case readStart => exact fun p a => h.startFrame (fun u hu => hu.beginSending p) a
  case tick =>
    unfold tickAll
    split <;> exact h
  case holdExpiry => exact h.expireHold
  case idleExpiry => exact fun p => expireIdle_of h fun _ _ => NotesOk.deliver (h.of_notes rfl) p _ (by decide)
  case take =>
    exact takeHead_of h (fun p _ _ _ _ _ => NotesOk.deliver (h.of_notes rfl) p _ (by decide))
      (fun _ _ _ _ _ => h.of_notes rfl)
  case digest => exact digestPage_of h fun _ _ => h.of_notes rfl
  case publish => exact publishHead_of h fun c _ _ => h.publishCommit c
  case reset => exact fun _ _ q => by simpa [deviceReset, State.reset] using Notify.afterReset_ok
  case resetEnd =>
    intro _ _
    unfold deviceResetEnd
    split <;> exact h
  case pollReady =>
    refine fun left => pollReady_of h (fun _ _ => ?_) (fun _ _ _ _ => h.of_notes rfl) (fun _ c _ _ => ?_)
      (fun _ c _ _ => ?_)
    · unfold sendLoadRead
      split <;> exact h
    · unfold sendErase
      split <;> exact h
    · unfold sendProgram
      split <;> exact h
  case pollTimeout => exact pollTimeout_of h (fun _ _ _ => h.endLoad _ _ _) (fun _ _ _ _ _ _ => h.endCheckpoint _)
  case eraseDone =>
    exact fun left => eraseDone_of h fun _ _ _ _ _ =>
      eraseEnded_of (checkpoint _ rfl) (fun _ _ _ => checkpoint _ rfl) (fun _ _ _ => checkpoint _ rfl) (fun _ _ _ => checkpoint _ rfl)
  case eraseExpiry => exact expireErase_of h fun _ _ _ => h.endCheckpoint _
  case programDone => exact fun left => programDone_of h fun _ _ _ _ => h.of_notes rfl
  case programExpiry => exact expireProgram_of h fun _ _ _ _ => h.endCheckpoint _
  case readback =>
    exact fun _ => readbackDone_of h
      (fun _ _ _ _ _ => unitVerified_of h (fun _ _ _ _ => checkpoint _ rfl) (fun _ _ _ _ => checkpoint _ rfl)
        (fun _ => NotesOk.endCheckpoint (s := savedState _ s) h _))
      (fun _ _ _ _ _ => h.endCheckpoint _)
  case headers => exact headersRead_of h (fun _ _ => h.endLoad _ _ _) (fun _ _ => slots)
  case checked => exact entryChecked_of h (fun _ _ _ => slots) (fun _ _ _ _ _ => h.of_notes rfl) (fun _ _ _ => h.of_notes rfl)
  case installed =>
    have hinstalled : ∀ e u, installEntry e s = some u → NotesOk u := by
      intro e u hu
      obtain ⟨-, -, -, content, pool, -, rfl⟩ := installEntry_inv hu
      exact h.of_notes rfl
    exact entryInstalled_of h (fun _ _ _ => h.endLoad _ _ _) (fun _ e u _ _ _ hu => (hinstalled e u hu).of_notes rfl)
      (fun _ e u _ _ _ hu => (hinstalled e u hu).endLoad _ _ _)
  case received => exact fun p b => receiveClocked_of h (fun _ _ _ _ => h.of_notes rfl) (fun _ _ _ _ _ => h.of_notes rfl)
  case sent => exact fun p b => sendClocked_of h (fun _ _ _ _ => h.of_notes rfl) (fun _ _ _ _ => h.of_notes rfl)

/-- Settles O4: every change of a port's notification state settles it, and the rest of a command leaves it alone. -/
theorem notificationStaysInOrder : Obligations.NotificationStaysInOrder := by
  intro s t h hstep
  rcases step_cases hstep with rfl | ⟨c, rest, -, hc⟩
  · exact h
  · exact NotesOk.exec (s := { s with pending := rest }) h hc

end Sys2Proof.Machine
end

section
/-! SUPPORT. The canonical form of the memories under every operation of the pool and every command, and the statement
about it. -/

namespace Sys2Proof.Machine

/-! ### The pool's memories -/

/-- The page bytes and the reference counts stand in canonical form. -/
structure Pool.Wf (pool : Pool) : Prop where
  bytes : Memory.wf 0#8 pool.bytes = true
  refs : cellsWf 0 pool.refs = true

section
variable {pool pool' : Pool} {body body' : StagedBody}

theorem Pool.Wf.alloc (h : pool.Wf) {contents : List Byte} {n : PageNo} (ha : pool.alloc contents = some (n, pool')) :
    pool'.Wf := by
  obtain ⟨hb, hr⟩ := Pool.alloc_wf h.bytes h.refs ha
  exact ⟨hb, hr⟩

theorem Pool.Wf.lose (h : pool.Wf) (n : PageNo) : (pool.lose n).Wf :=
  ⟨(pool.lose_bytes n).symm ▸ h.bytes, Pool.lose_wf h.refs n⟩

theorem Pool.Wf.loseAll (h : pool.Wf) (ns : List PageNo) : (pool.loseAll ns).Wf :=
  ⟨(pool.loseAll_bytes ns).symm ▸ h.bytes, Pool.loseAll_wf h.refs ns⟩

theorem Pool.gainAll_bytes (pool : Pool) (ns : List PageNo) : (pool.gainAll ns).bytes = pool.bytes := by
  induction ns generalizing pool with
  | nil => rfl
  | cons n ns ih => exact ih _

theorem Pool.Wf.gainAll (h : pool.Wf) (ns : List PageNo) : (pool.gainAll ns).Wf :=
  ⟨(pool.gainAll_bytes ns).symm ▸ h.bytes, Pool.gainAll_wf h.refs ns⟩

theorem Pool.Wf.fill (h : pool.Wf) (n : PageNo) (offset : Nat) (bs : List Byte) : (pool.fill n offset bs).Wf :=
  ⟨Pool.fill_wf h.bytes n offset bs, h.refs⟩

theorem Pool.Wf.touchPage (h : pool.Wf) {i : Nat} (ht : touchPage pool body i = some (pool', body')) : pool'.Wf := by
  unfold Machine.touchPage at ht
  split at ht
  · split at ht
    · cases ht
    next ha =>
      cases ht
      exact h.alloc ha
  · split at ht
    · split at ht
      · cases ht
      next ha =>
        cases ht
        exact (h.alloc ha).lose _
    · cases ht
      exact h

theorem Pool.Wf.touchPages (h : pool.Wf) {is : List Nat} (ht : touchPages is pool body = some (pool', body')) :
    pool'.Wf := by
  induction is generalizing pool body with
  | nil =>
    cases ht
    exact h
  | cons i rest ih =>
    rw [Machine.touchPages] at ht
    split at ht
    · cases ht
    next hi => exact ih (h.touchPage hi) ht

theorem Pool.Wf.storeBody (h : pool.Wf) (body : StagedBody) (offset : Nat) (data : List Byte) :
    (storeBody body offset data pool).Wf := by
  induction data generalizing pool offset with
  | nil => exact h
  | cons b bs ih =>
    rw [Machine.storeBody]
    split
    · exact ih h _
    · exact ih (h.fill _ _ _) _

theorem Pool.Wf.writeBody (h : pool.Wf) {offset : Nat} {data : List Byte}
    (hw : writeBody offset data pool body = some (pool', body')) : pool'.Wf := by
  unfold Machine.writeBody at hw
  split at hw
  · cases hw
  next ht =>
    cases hw
    exact (h.touchPages ht).storeBody _ _ _

theorem Pool.Wf.growPages (h : pool.Wf) {k : Nat} (hg : growPages k pool body = some (pool', body')) : pool'.Wf := by
  induction k generalizing pool body with
  | zero =>
    cases hg
    exact h
  | succ k ih =>
    rw [Machine.growPages] at hg
    split at hg
    · cases hg
    next ha => exact ih (h.alloc ha) hg

theorem Pool.Wf.clearTail (h : pool.Wf) {tail : Nat} (hc : clearTail tail pool body = some (pool', body')) :
    pool'.Wf := by
  unfold Machine.clearTail at hc
  split at hc
  · cases hc
    exact h
  · split at hc
    · split at hc
      · cases hc
      next ha =>
        cases hc
        exact (h.alloc ha).lose _
    · cases hc
      exact h.fill _ _ _

theorem Pool.Wf.resizeBody (h : pool.Wf) {length : Nat} (hr : resizeBody length pool body = some (pool', body')) :
    pool'.Wf := by
  unfold Machine.resizeBody at hr
  split at hr
  · simp only [shrinkBody] at hr
    split at hr
    · cases hr
      exact h.loseAll _
    · exact (h.loseAll _).clearTail hr
  · unfold growBody at hr
    split at hr
    · cases hr
    next hg =>
      cases hr
      exact h.growPages hg

theorem Pool.Wf.releaseBody (h : pool.Wf) (p : Port) (body : StagedBody) : (pool.releaseBody p body).Wf :=
  ⟨(h.loseAll _).bytes, (h.loseAll _).refs⟩

theorem Pool.Wf.releaseOp (h : pool.Wf) (p : Port) (op : IntentOp) : (releaseOp p op pool).Wf := by
  unfold Machine.releaseOp
  split
  · exact h
  · exact h.releaseBody p _

theorem Pool.Wf.releaseBodies (h : pool.Wf) (p : Port) (intents : List Intent) : (releaseBodies p pool intents).Wf := by
  induction intents generalizing pool with
  | nil => exact h
  | cons i rest ih => exact ih (h.releaseOp p i.op)

theorem Pool.Wf.loadPages (h : pool.Wf) {k : Nat} {bs : List Byte} {ns : List PageNo}
    (hl : loadPages k bs pool = some (ns, pool')) : pool'.Wf := by
  induction k generalizing pool bs ns with
  | zero =>
    cases hl
    exact h
  | succ k ih =>
    rw [Machine.loadPages] at hl
    split at hl
    · cases hl
    next ha =>
      split at hl
      · cases hl
      next hr =>
        cases hl
        exact ih (h.alloc ha) hr

theorem Pool.Wf.start (h : pool.Wf) (start : Start) : (start.pool pool).Wf := by
  cases start with
  | entry op body => exact h
  | firstTouch base length pages => exact h.gainAll pages

/-- A granted claim leaves the pool that its change made, with the port's staged-owned count. -/
theorem stagedClaim_inv {p : Port} {change : Option (Pool × StagedBody)}
    (h : stagedClaim p pool body change = .ok (pool', body')) :
    ∃ changed, change = some (changed, body')
      ∧ pool.stagedOwned.get p + body'.ownedCount - body.ownedCount ≤ 256
      ∧ pool' = { changed with stagedOwned :=
          changed.stagedOwned.set p (pool.stagedOwned.get p + body'.ownedCount - body.ownedCount) } := by
  unfold stagedClaim at h
  split at h
  · cases h
  · dsimp only at h
    split at h
    · cases h
    next hq =>
      cases h
      exact ⟨_, rfl, Nat.not_lt.mp hq, rfl⟩

end

/-! ### Every command -/

variable {s t : State}

theorem MemoriesOk.pool_wf (h : MemoriesOk s) : s.pool.Wf := ⟨h.pages, h.counts⟩

theorem MemoriesOk.of_pool (h : MemoriesOk s) (hp : t.pool.Wf) (hf : t.flash = s.flash) : MemoriesOk t :=
  ⟨hp.bytes, hp.refs, hf ▸ h.flash⟩

theorem MemoriesOk.of_flash (h : MemoriesOk s) (hp : t.pool = s.pool) (hf : Memory.wf erasedByte t.flash.mem = true) :
    MemoriesOk t :=
  ⟨hp ▸ h.pages, hp ▸ h.counts, hf⟩

/-- Only the pool and the flash hold memories. -/
theorem MemoriesOk.of_eq (h : MemoriesOk s) (hp : t.pool = s.pool) (hf : t.flash = s.flash) : MemoriesOk t :=
  h.of_flash hp (hf ▸ h.flash)

theorem MemoriesOk.retireBy (h : MemoriesOk s) (check : DirSlot → List Version × List Version) :
    MemoriesOk (retireBy check s) :=
  h.of_pool (h.pool_wf.loseAll _) rfl

theorem MemoriesOk.retireOnRelease (h : MemoriesOk s) : MemoriesOk (retireOnRelease s) := h.retireBy _

theorem MemoriesOk.retireOnPublish (h : MemoriesOk s) (tags : List Tag) : MemoriesOk (retireOnPublish tags s) := h.retireBy _

theorem MemoriesOk.endCheckpoint (h : MemoriesOk s) (r : ImageResult) : MemoriesOk (endCheckpoint r s) := by
  have hstopped : MemoriesOk { s with image := { s.image with checkpoint := none, op := .none }, slot4 := none } :=
    h.of_eq rfl rfl
  exact hstopped.retireOnRelease.of_eq rfl rfl

theorem MemoriesOk.lapse (h : MemoriesOk s) (p : Port) (g : Gen) : MemoriesOk (lapse p g s) :=
  (MemoriesOk.retireOnRelease (s := s.setSnap p ⟨.lapsed, none, false⟩) (h.of_eq rfl rfl)).of_eq rfl rfl

theorem MemoriesOk.expireHold (h : MemoriesOk s) (p : Port) : MemoriesOk (expireHold p s) :=
  expireHold_of h (fun _ _ _ _ _ _ => h.of_eq rfl rfl) (fun g _ _ _ => h.lapse p g)

theorem MemoriesOk.releaseBinding (h : MemoriesOk s) (p : Port) : MemoriesOk (releaseBinding p s) :=
  releaseBinding_of (fun _ => h.of_eq rfl rfl) (fun _ => MemoriesOk.retireOnRelease (h.of_eq rfl rfl))

theorem MemoriesOk.discardTxn (h : MemoriesOk s) (p : Port) (o : TxnOutcome) : MemoriesOk (discardTxn p o s) :=
  h.of_pool (h.pool_wf.releaseBodies p _) rfl

theorem MemoriesOk.resetTxn (h : MemoriesOk s) (p : Port) : MemoriesOk (resetTxn p s) := by
  have hq : MemoriesOk (leaveQueue p s) := h.of_eq rfl rfl
  unfold Machine.resetTxn
  dsimp only
  split
  · exact h.of_eq rfl rfl
  · exact (h.discardTxn p .none).of_eq rfl rfl
  · exact (hq.discardTxn p .none).of_eq rfl rfl
  all_goals exact h.of_eq rfl rfl

theorem MemoriesOk.staging (h : MemoriesOk s) {p : Port} {act : Except Refused State}
    (ha : ∀ t, act = .ok t → MemoriesOk t) : MemoriesOk (staging p act s).1 := by
  unfold Machine.staging
  split
  · exact h
  · split
    next t => exact (ha t rfl).of_eq rfl rfl
    all_goals exact h.of_eq rfl rfl
  all_goals exact h

theorem MemoriesOk.claimBody (h : MemoriesOk s) {p : Port} {tag : Tag} {start : Start}
    {change : Pool → StagedBody → Option (Pool × StagedBody)}
    (hc : ∀ pool body pool' body', pool.Wf → change pool body = some (pool', body') → pool'.Wf)
    (ha : claimBody p tag start change s = .ok t) : MemoriesOk t := by
  unfold Machine.claimBody at ha
  split at ha
  · cases ha
  next pool body hclaim =>
    cases ha
    obtain ⟨changed, hchange, -, rfl⟩ := stagedClaim_inv hclaim
    have hwf := hc _ _ _ _ (h.pool_wf.start start) hchange
    exact h.of_pool ⟨hwf.bytes, hwf.refs⟩ rfl

theorem MemoriesOk.actDelete (h : MemoriesOk s) {p : Port} {tag : Tag} (ha : actDelete p tag s = .ok t) :
    MemoriesOk t := by
  simp only [Machine.actDelete] at ha
  split at ha
  · split at ha
    next _ base body _ => cases ha; exact h.of_pool (h.pool_wf.releaseOp p (.written base body)) rfl
    · cases ha; exact h.of_eq rfl rfl
    next _ attrs staged _ => cases ha; exact h.of_pool (h.pool_wf.releaseOp p (.created attrs staged)) rfl
    · cases ha
    · split at ha
      · cases ha
      · split at ha
        · cases ha
        · cases ha
        · split at ha
          · split at ha
            · cases ha; exact h.of_eq rfl rfl
            · cases ha
          · cases ha
  · cases ha

theorem MemoriesOk.takingOf_txn (h : MemoriesOk s) {r : Request} (hr : r ∈ txnRequests) (p : Port) (args : List Byte) :
    MemoriesOk (takingOf r p args s).1 := by
  cases r with
  | beginTxn =>
    show MemoriesOk (takeBegin p s).1
    simp only [takeBegin]
    split <;> exact h.of_eq rfl rfl
  | create =>
    refine h.staging fun t ha => ?_
    obtain ⟨intents, rfl⟩ := actCreate_frame ha
    exact h.of_eq rfl rfl
  | write =>
    refine h.staging fun t ha => ?_
    obtain ⟨-, start, -, -, hclaim⟩ := actWrite_inv ha
    exact h.claimBody (fun _ _ _ _ hw hc => hw.writeBody hc) hclaim
  | resize =>
    refine h.staging fun t ha => ?_
    obtain ⟨-, start, -, hclaim⟩ := actResize_inv ha
    exact h.claimBody (fun _ _ _ _ hw hc => hw.resizeBody hc) hclaim
  | add =>
    refine h.staging fun t ha => ?_
    obtain ⟨intents, rfl⟩ := actAdd_frame ha
    exact h.of_eq rfl rfl
  | delete => exact h.staging fun t ha => h.actDelete ha
  | commit =>
    show MemoriesOk (takeCommit p s).1
    simp only [takeCommit]
    split
    · exact h
    · split <;> exact h.of_eq rfl rfl
    all_goals exact h
  | abort =>
    show MemoriesOk (takeAbort p s).1
    simp only [takeAbort]
    split
    · exact h
    · exact h.discardTxn p _
    · exact MemoriesOk.discardTxn (s := leaveQueue p s) (h.of_eq rfl rfl) p _
    all_goals exact h
  | txnStatus =>
    show MemoriesOk (takeTxnStatus p s).1
    simp only [takeTxnStatus]
    split <;> exact h.of_eq rfl rfl
  | _ => simp [txnRequests] at hr

theorem MemoriesOk.takingOf (h : MemoriesOk s) (r : Request) (p : Port) (args : List Byte) :
    MemoriesOk (takingOf r p args s).1 := by
  refine takingOf_cases r args h (fun n hn => h.of_eq rfl rfl) (fun _ => h.of_eq rfl rfl) (fun _ _ _ => h.of_eq rfl rfl)
    ((h.releaseBinding p).of_eq rfl rfl) (h.releaseBinding p) (fun hr => h.takingOf_txn hr p args)
    (((h.resetTxn p).releaseBinding p).of_eq rfl rfl) ?_ ?_
  · unfold takeCheckpoint
    split
    · split
      · exact h
      · split
        · exact h
        · exact h.of_eq rfl rfl
    · exact h
  · unfold takeCheckpointCancel
    split
    · split
      · exact h
      · split
        · exact h.endCheckpoint _
        · exact h.endCheckpoint _
        · exact h
    · exact h

theorem MemoriesOk.endReceiving (h : MemoriesOk s) (p : Port) (buffer : List Byte) :
    MemoriesOk (endReceiving p buffer s) := by
  rcases endReceiving_cases p buffer s with he | ⟨code, a, he⟩ | ⟨r, args, -, -, he⟩
  · exact he ▸ h.of_eq rfl rfl
  · exact he ▸ h.of_eq rfl rfl
  · have hj : MemoriesOk (judgedState p s) := h.of_eq rfl rfl
    exact he ▸ (hj.takingOf r p args).of_eq rfl rfl

theorem MemoriesOk.endSending (h : MemoriesOk s) (p : Port) : MemoriesOk (endSending p s) :=
  endSending_of (fun _ _ => MemoriesOk.retireOnRelease (h.of_eq rfl rfl))
    (fun g _ _ => MemoriesOk.lapse (s := closeFrame p s) (h.of_eq rfl rfl) p g) (fun _ _ => h.of_eq rfl rfl)

theorem MemoriesOk.startFrame (h : MemoriesOk s) {begins : Port → State → State} {p : Port}
    (hb : ∀ u, MemoriesOk u → MemoriesOk (begins p u)) (address : BitVec 7) :
    MemoriesOk (startFrame begins p address s) := by
  have ho : MemoriesOk (endOpenFrame p s) := by
    unfold endOpenFrame
    split
    · exact h
    · exact h.endReceiving p _
    · exact h.endSending p
  simp only [Machine.startFrame]
  split
  · exact h
  · split
    · exact (hb _ ho).of_eq rfl rfl
    · exact ho.of_eq rfl rfl

theorem MemoriesOk.beginSending (h : MemoriesOk s) (p : Port) : MemoriesOk (beginSending p s) := by
  have hb : ∀ u streaming, MemoriesOk u → MemoriesOk (bindSlot p streaming u) := by
    intro u streaming hu
    simp only [bindSlot]
    split
    · exact hu.of_eq rfl rfl
    · split <;> exact hu.of_eq rfl rfl
    all_goals exact hu
  exact (hb _ _ (h.expireHold p)).of_eq rfl rfl

theorem MemoriesOk.installIntents (h : MemoriesOk s) (p : Port) (done : List (Tag × Crc)) (intents : List Intent) :
    MemoriesOk (intents.foldl (installIntent p done) s) := by
  induction intents generalizing s with
  | nil => exact h
  | cons i rest ih =>
    refine ih (h.of_pool ?_ rfl)
    simp only [installIntent]
    split
    · exact h.pool_wf
    · exact ⟨h.pages, h.counts⟩

theorem deliverRecordEvents_pool_flash (intents : List Intent) (s : State) :
    (intents.foldl (fun t i => deliverRecordEvent (recordEvent t.g i) t) s).pool = s.pool
      ∧ (intents.foldl (fun t i => deliverRecordEvent (recordEvent t.g i) t) s).flash = s.flash := by
  induction intents generalizing s with
  | nil => exact ⟨rfl, rfl⟩
  | cons i rest ih => exact ih _

theorem MemoriesOk.publishCommit (h : MemoriesOk s) (c : Commit) : MemoriesOk (publishCommit c s) := by
  have htold : ∀ u, MemoriesOk u → MemoriesOk (endCommitter c.port u) := by
    intro u hu
    simp only [endCommitter]
    split
    · exact hu.of_eq rfl rfl
    all_goals exact hu
  have hraised : MemoriesOk { s with g := s.g + 1#32 } := h.of_eq rfl rfl
  have hinstalled := hraised.installIntents c.port c.done (s.txns.get c.port).intents
  have htold := htold _ (MemoriesOk.retireOnPublish hinstalled ((s.txns.get c.port).intents.map Intent.tag))
  obtain ⟨hp, hf⟩ := deliverRecordEvents_pool_flash (s.txns.get c.port).intents _
  exact htold.of_eq hp hf

/-- Every command keeps the memories in canonical form. -/
theorem MemoriesOk.exec (h : MemoriesOk s) {c : Instr} (hc : exec c s = .next t) : MemoriesOk t := by
  have settled : ∀ left, MemoriesOk (settledState left s) := fun left =>
    h.of_flash rfl (Flash.settle_wf h.flash left)
  have slots : ∀ slots, MemoriesOk (trySlots s slots) :=
    trySlots_of (h.of_eq rfl rfl) (fun _ _ _ => h.of_eq rfl rfl) (fun _ _ _ => h.of_eq rfl rfl)
  refine exec_cases h ?endReceiving ?endSending ?writeStart ?readStart ?tick ?holdExpiry ?idleExpiry ?take ?digest
    ?publish ?reset ?resetEnd ?pollReady ?pollTimeout ?eraseDone ?eraseExpiry ?programDone ?programExpiry ?readback
    ?headers ?checked ?installed ?received ?sent hc
  case endReceiving => exact fun p _ _ _ held _ => h.endReceiving p held
  case endSending => exact fun p _ _ _ => h.endSending p
  case writeStart => exact fun p a => h.startFrame (fun u hu => hu.of_eq rfl rfl) a
  case readStart => exact fun p a => h.startFrame (fun u hu => hu.beginSending p) a
  case tick =>
    unfold tickAll
    split <;> exact h.of_eq rfl rfl
  case holdExpiry => exact h.expireHold
  case idleExpiry => exact fun p => expireIdle_of h fun _ _ => (h.discardTxn p .timedOut).of_eq rfl rfl
  case take =>
    refine takeHead_of h (fun p rest o _ _ _ => ?_) (fun _ _ _ _ _ => h.of_eq rfl rfl)
    exact (MemoriesOk.discardTxn (s := takenState p rest s) (h.of_eq rfl rfl) p o).of_eq rfl rfl
  case digest => exact digestPage_of h fun _ _ => h.of_eq rfl rfl
  case publish => exact publishHead_of h fun c _ _ => h.publishCommit c
  case reset =>
    intro cause _
    obtain ⟨hb, hr, -⟩ := memories_reset_wf
    refine ⟨hb, hr, ?_⟩
    cases cause with
    | resetN => exact h.flash
    | power left => exact Flash.cutOff_wf h.flash left
  case resetEnd =>
    intro _ _
    unfold deviceResetEnd
    split <;> exact h.of_eq rfl rfl
  case pollReady =>
    refine fun left => pollReady_of h (fun _ _ => ?_) (fun _ _ _ _ => (settled left).of_eq rfl rfl) (fun _ c _ _ => ?_)
      (fun _ c _ _ => ?_)
    · unfold sendLoadRead
      split <;> exact (settled left).of_eq rfl rfl
    · unfold sendErase
      split <;> exact (settled left).of_flash rfl (settled left).flash
    · unfold sendProgram
      split <;> exact (settled left).of_flash rfl (settled left).flash
  case pollTimeout => exact pollTimeout_of h (fun _ _ _ => h.of_eq rfl rfl) (fun _ _ _ _ _ _ => h.endCheckpoint _)
  case eraseDone =>
    exact fun left => eraseDone_of h fun _ _ _ _ _ => eraseEnded_of (settled left)
      (fun _ _ _ => (settled left).of_eq rfl rfl) (fun _ _ _ => (settled left).of_eq rfl rfl)
      (fun _ _ _ => (settled left).of_eq rfl rfl)
  case eraseExpiry => exact expireErase_of h fun _ _ _ => h.endCheckpoint _
  case programDone => exact fun left => programDone_of h fun _ _ _ _ => (settled left).of_eq rfl rfl
  case programExpiry => exact expireProgram_of h fun _ _ _ _ => h.endCheckpoint _
  case readback =>
    exact fun _ => readbackDone_of h
      (fun _ _ _ _ _ => unitVerified_of h (fun _ _ _ _ => h.of_eq rfl rfl) (fun _ _ _ _ => h.of_eq rfl rfl)
        (fun _ => MemoriesOk.endCheckpoint (s := savedState _ s) (h.of_eq rfl rfl) _))
      (fun _ _ _ _ _ => h.endCheckpoint _)
  case headers => exact headersRead_of h (fun _ _ => h.of_eq rfl rfl) (fun _ _ => slots)
  case checked => exact entryChecked_of h (fun _ _ _ => slots) (fun _ _ _ _ _ => h.of_eq rfl rfl) (fun _ _ _ => h.of_eq rfl rfl)
  case installed =>
    have hinstalled : ∀ e u, installEntry e s = some u → MemoriesOk u := by
      intro e u hu
      obtain ⟨-, -, -, content, pool, hl, rfl⟩ := installEntry_inv hu
      refine h.of_pool ?_ rfl
      unfold loadContent at hl
      split at hl
      · cases hl
        exact h.pool_wf
      · split at hl
        · cases hl
        next hpages =>
          cases hl
          exact h.pool_wf.loadPages hpages
    exact entryInstalled_of h (fun _ _ _ => h.of_eq rfl rfl)
      (fun _ e u _ _ _ hu => (hinstalled e u hu).of_eq rfl rfl) (fun _ e u _ _ _ hu => (hinstalled e u hu).of_eq rfl rfl)
  case received => exact fun p b => receiveClocked_of h (fun _ _ _ _ => h.of_eq rfl rfl) (fun _ _ _ _ _ => h.of_eq rfl rfl)
  case sent => exact fun p b => sendClocked_of h (fun _ _ _ _ => h.of_eq rfl rfl) (fun _ _ _ _ => h.of_eq rfl rfl)

/-- Settles O5: the pool's operations write their memories by canonical writes alone, and so do an erase and a program. -/
theorem memoriesStayCanonical : Obligations.MemoriesStayCanonical := by
  intro s t h hstep
  rcases step_cases hstep with rfl | ⟨c, rest, -, hc⟩
  · exact h
  · exact MemoriesOk.exec (s := { s with pending := rest }) (h.of_eq rfl rfl) hc

end Sys2Proof.Machine
end

section
/-! SUPPORT. Frames on the bus: the statements about the start, the bytes and the end of a frame. -/

namespace Sys2Proof.Machine

variable {p : Port} {s : State}

/-! ### Ends of frames -/

theorem readFrameEnds_of_sending {limit : Nat} {f : ReadFrame} (h : (s.ifaces.get p).frame = .sending limit f) :
    readFrameEnds p s = endSending p s := by
  simp only [readFrameEnds, h]

theorem endSending_of_frame {g : Gen} (h : (s.snaps.get p).state = .frame g) :
    endSending p s = retireOnRelease ((frameOver p s).setSnap p ⟨.free, none, false⟩) := by
  have hs : ((closeFrame p s).snaps.get p).state = .frame g := h
  simp only [endSending, hs]
  rfl

theorem endSending_of_pending {g : Gen} (h : (s.snaps.get p).state = .held g) (hl : (s.snaps.get p).lapsePending = true) :
    endSending p s = deliver p ⟨.snapLapsed, 0x0000#16, g, .zero⟩ flagLapsed
      (retireOnRelease ((frameOver p s).setSnap p ⟨.lapsed, none, false⟩)) := by
  have hs : ((closeFrame p s).snaps.get p).state = .held g := h
  have hl' : ((closeFrame p s).snaps.get p).lapsePending = true := hl
  simp only [endSending, hs, hl', if_true]
  rfl

theorem endSending_of_held {g : Gen} (h : (s.snaps.get p).state = .held g) (hl : (s.snaps.get p).lapsePending = false) :
    endSending p s = frameOver p s := by
  have hs : ((closeFrame p s).snaps.get p).state = .held g := h
  have hl' : ((closeFrame p s).snaps.get p).lapsePending = false := hl
  simp only [endSending, hs, hl']
  rfl

theorem endSending_of_unbound (h : (s.snaps.get p).state = .free ∨ (s.snaps.get p).state = .lapsed) :
    endSending p s = frameOver p s := by
  have hs : (closeFrame p s).snaps = s.snaps := rfl
  rcases h with h | h <;> simp only [endSending, hs, h] <;> rfl

/-- The end of a read frame touches its port's interface as the end of any frame does, and no other port's. -/
theorem endSending_ifaces (p : Port) (s : State) : (endSending p s).ifaces = (frameOver p s).ifaces :=
  endSending_of (P := fun t => t.ifaces = (frameOver p s).ifaces) (fun _ _ => rfl) (fun _ _ _ => rfl) (fun _ _ => rfl)

theorem frameOver_get (p : Port) (s : State) : (frameOver p s).ifaces.get p
    = { s.ifaces.get p with frame := .idle, stall := none, bus := .released } := by
  simp [frameOver]

theorem endSending_inReset (p : Port) (s : State) : (endSending p s).inReset = s.inReset :=
  endSending_of (P := fun t => t.inReset = s.inReset) (fun _ _ => rfl) (fun _ _ _ => rfl) (fun _ _ => rfl)

/-- Settles O23: the end of a read frame by the state of its port's slot. -/
theorem readFrameEndDealsWithTheSlot : Obligations.ReadFrameEndDealsWithTheSlot := by
  intro p s limit f hf
  have hrow : exec (.readFrameEnd p) s = .next (endSending p s) := congrArg _ (readFrameEnds_of_sending hf)
  refine ⟨fun g h => ?_, fun g h hl => ?_, fun g h hl => ?_, fun h => ?_⟩
  · rw [hrow, endSending_of_frame h]
  · rw [hrow, endSending_of_pending h hl]
  · rw [hrow, endSending_of_held h hl]
  · rw [hrow, endSending_of_unbound h]

/-- Settles O24: a due stall timer ends the open frame by its direction. -/
theorem stallExpiryAbandonsTheFrame : Obligations.StallExpiryAbandonsTheFrame := by
  intro p s
  refine ⟨?_, ?_, fun h => ?_⟩
  · rintro hd ⟨bytes, limit, hf⟩
    have hrow : expireStall p s = closeFrame p s := by simp [expireStall, Timer.due, hd, hf]
    exact congrArg _ hrow
  · rintro hd ⟨limit, f, hf⟩
    have hrow : expireStall p s = endSending p s := by simp [expireStall, Timer.due, hd, hf]
    refine ⟨endSending p s, congrArg _ hrow, congrArg _ (readFrameEnds_of_sending hf), ?_⟩
    rw [endSending_ifaces, frameOver_get]
    exact ⟨rfl, rfl, rfl, rfl⟩
  · have hrow : expireStall p s = s := by simp [expireStall, Timer.due, h]
    exact congrArg _ hrow

/-- Settles O21: the judgements of Table 8-2 that take no request. -/
theorem untakenFramesChangeOnlyTheReply : Obligations.UntakenFramesChangeOnlyTheReply := by
  refine ⟨fun r p s args h => ⟨fun hl => ?_, fun hl hd hr => ?_⟩, ?_, ?_⟩
  · rw [exec_requestRow, endRequest_malformed h hl]
  · rw [exec_requestRow, endRequest_notReady h hl hd hr]
  · rintro p s code args ⟨limit, hf⟩ hcode
    have hrow : unknownFrameEnds p s = endUnknown p code s := by
      simp only [unknownFrameEnds, hf, (requestOfCode_eq_none_iff code).mpr hcode, if_true]
    exact congrArg _ (hrow.trans (endUnknown_eq p code s))
  · rintro p s ⟨limit, hf⟩
    have hrow : emptyFrameEnds p s = closeFrame p s := by simp only [emptyFrameEnds, hf]
    exact congrArg _ hrow

/-! ### A START -/

theorem portAddress_iff (address : BitVec 7) (s : State) : address = portAddress s ↔ address.toNat = 0x58 + s.adr.toNat := by
  have h := s.adr.isLt
  have hn : (portAddress s).toNat = 0x58 + s.adr.toNat := by
    simp only [portAddress, BitVec.toNat_add, BitVec.toNat_setWidth, BitVec.toNat_ofNat]
    omega
  rw [← hn]
  exact ⟨fun h => by rw [h], BitVec.eq_of_toNat_eq⟩

theorem endOpenFrame_of_idle (h : (s.ifaces.get p).frame = .idle) : endOpenFrame p s = s := by
  simp only [endOpenFrame, h]

theorem startFrame_of_inReset (h : s.inReset = true) (begins : Port → State → State) (address : BitVec 7) :
    startFrame begins p address s = s := by
  simp only [startFrame, h, if_true]

/-- A START outside device reset ends the open frame and then answers the port's own address alone. -/
theorem startFrame_eq (h : s.inReset = false) (begins : Port → State → State) (address : BitVec 7) :
    startFrame begins p address s
      = if address = portAddress (endOpenFrame p s) then driveBus p .acknowledged (begins p (endOpenFrame p s))
        else driveBus p .notAcknowledged (endOpenFrame p s) := by
  simp [startFrame, h]

/-- Settles O17: a START on an idle port by the address it carries. -/
theorem startAnswersOwnAddressOnly : Obligations.StartAnswersOwnAddressOnly := by
  intro p address s hi
  refine ⟨fun hr => ?_, fun hr ha => ?_, fun hr ha => ?_⟩
  · exact ⟨congrArg _ (startFrame_of_inReset hr ..), congrArg _ (startFrame_of_inReset hr ..)⟩
  · have hother : ∀ begins, startFrame begins p address s = driveBus p .notAcknowledged s := fun begins => by
      rw [startFrame_eq hr, endOpenFrame_of_idle hi, if_neg (mt (portAddress_iff address s).mp ha)]
    exact ⟨congrArg _ (hother _), congrArg _ (hother _)⟩
  · have hown : startFrame beginReceiving p address s = driveBus p .acknowledged (beginReceiving p s) := by
      rw [startFrame_eq hr, endOpenFrame_of_idle hi, if_pos ((portAddress_iff address s).mpr ha)]
    refine congrArg _ (hown.trans ?_)
    simp [driveBus, beginReceiving]

/-- What a request leaves of device reset and of its port's frame when it is taken on an idle port. -/
theorem takingOf_keeps_idle (r : Request) (args : List Byte) (h : (s.ifaces.get p).frame = .idle) :
    ((takingOf r p args s).1.ifaces.get p).frame = .idle ∧ (takingOf r p args s).1.inReset = s.inReset := by
  have hrelease : ∀ u : State, (releaseBinding p u).ifaces = u.ifaces ∧ (releaseBinding p u).inReset = u.inReset :=
    fun u => releaseBinding_of (P := fun t => t.ifaces = u.ifaces ∧ t.inReset = u.inReset)
      (fun _ => ⟨rfl, rfl⟩) (fun _ => ⟨rfl, rfl⟩)
  refine takingOf_cases (P := fun t => (t.ifaces.get p).frame = .idle ∧ t.inReset = s.inReset) r args ⟨h, rfl⟩
    (fun _ _ => ⟨h, rfl⟩) (fun x => ⟨by simpa using h, rfl⟩) (fun config mask _ => ⟨?_, rfl⟩) ?_ ?_ ?_ ?_ ?_ ?_
  · simpa [setConfig] using h
  · obtain ⟨hi, hr⟩ := hrelease s
    exact ⟨(congrArg (fun m : PortMap Iface => (m.get p).frame) hi).trans h, hr⟩
  · obtain ⟨hi, hr⟩ := hrelease s
    exact ⟨(congrArg (fun m : PortMap Iface => (m.get p).frame) hi).trans h, hr⟩
  · intro hr
    obtain ⟨pool, queue, ctx, he⟩ := takingOf_txn_frame hr p args s
    rw [he]
    exact ⟨h, rfl⟩
  · have hreset : (resetTxn p s).inReset = s.inReset := by
      simp only [resetTxn]
      split <;> rfl
    exact ⟨by simp [takePortReset, resetIface, Iface.afterReset], (hrelease (resetTxn p s)).2.trans hreset⟩
  · unfold takeCheckpoint
    split
    · split
      · exact ⟨h, rfl⟩
      · split <;> exact ⟨h, rfl⟩
    · exact ⟨h, rfl⟩
  · unfold takeCheckpointCancel
    split
    · split
      · exact ⟨h, rfl⟩
      · split <;> exact ⟨h, rfl⟩
    · exact ⟨h, rfl⟩

/-- Whatever frame was open, its end leaves the port idle and device reset as it was. -/
theorem endReceiving_keeps_idle (p : Port) (buffer : List Byte) (s : State) :
    ((endReceiving p buffer s).ifaces.get p).frame = .idle ∧ (endReceiving p buffer s).inReset = s.inReset := by
  have hj : ((judgedState p s).ifaces.get p).frame = .idle := by simp [judgedIface]
  rcases endReceiving_cases p buffer s with he | ⟨code, a, he⟩ | ⟨r, args, -, -, he⟩
  · rw [he, closeFrame_eq, frameOver_get]
    exact ⟨rfl, rfl⟩
  · rw [he]
    exact ⟨by simp [writeReply, judgedIface], rfl⟩
  · obtain ⟨hi, hr⟩ := takingOf_keeps_idle r args hj
    rw [he]
    exact ⟨by simpa [writeReply] using hi, hr⟩

theorem endOpenFrame_keeps_idle (p : Port) (s : State) :
    ((endOpenFrame p s).ifaces.get p).frame = .idle ∧ (endOpenFrame p s).inReset = s.inReset := by
  unfold endOpenFrame
  split
  next h => exact ⟨h, rfl⟩
  · exact endReceiving_keeps_idle p _ s
  · rw [endSending_ifaces, frameOver_get]
    exact ⟨rfl, endSending_inReset p s⟩

/-- Settles O19: the row of the open frame's end leaves what a START finds after it has ended that frame itself. -/
theorem startEndsTheOpenFrameFirst : Obligations.StartEndsTheOpenFrameFirst := by
  intro p s ending hr hend
  obtain ⟨hidle, hreset⟩ := endOpenFrame_keeps_idle p s
  have hstart : ∀ begins address, startFrame begins p address s = startFrame begins p address (endOpenFrame p s) := by
    intro begins address
    rw [startFrame_eq hr, startFrame_eq (hreset.trans hr), endOpenFrame_of_idle hidle]
  refine ⟨endOpenFrame p s, ?_, hidle, hreset.trans hr, fun address =>
    ⟨congrArg Host.Outcome.next (hstart ..), congrArg Host.Outcome.next (hstart ..)⟩⟩
  rcases hend with ⟨⟨limit, f, hf⟩, rfl⟩ | ⟨⟨limit, hf⟩, rfl⟩ | ⟨⟨c, args, ⟨limit, hf⟩, hc⟩, rfl⟩ | ⟨r, args, ⟨limit, hf⟩, rfl⟩
  · exact congrArg Host.Outcome.next (by simp only [readFrameEnds, endOpenFrame, hf])
  · exact congrArg Host.Outcome.next (by simp only [emptyFrameEnds, endOpenFrame, hf, endReceiving])
  · exact congrArg Host.Outcome.next (by simp only [unknownFrameEnds, endOpenFrame, hf, endReceiving, hc, if_true])
  · rw [exec_requestRow, endRequest_of_frame ⟨limit, hf⟩]
    simp only [endOpenFrame, hf, endReceiving, requestOfCode_requestCode]

/-! ### Data bytes -/

section
variable {limit : Nat} {bytes : List Byte} (hf : (s.ifaces.get p).frame = .receiving limit bytes)
include hf

theorem receiveByte_of_room (b : Byte) (hl : bytes.length < declaredLength bytes) :
    receiveByte p b s = s.setIface p { s.ifaces.get p with
      frame := .receiving limit (bytes ++ [b]), stall := Timer.load limit, bus := .acknowledged } := by
  simp only [receiveByte, hf, hl, if_true]

theorem receiveByte_of_surplus (b : Byte) (hl : declaredLength bytes ≤ bytes.length) :
    receiveByte p b s = s.setIface p { s.ifaces.get p with stall := Timer.load limit, bus := .notAcknowledged } := by
  simp only [receiveByte, hf, Nat.not_lt.mpr hl, if_false]

end

/-- A complete request is longer than each part of it that has arrived before: the declared length does not fall
below what it was when the last byte came (R166, R167). -/
theorem length_lt_declaredLength {before behind : List Byte} (hb : behind ≠ [])
    (h : (before ++ behind).length = declaredLength (before ++ behind)) : before.length < declaredLength before := by
  have hlong : before.length < (before ++ behind).length := by
    have := List.length_pos_of_ne_nil hb
    simpa using this
  cases before with
  | nil => decide
  | cons c args =>
    simp only [List.cons_append] at h hlong
    cases hc : requestOfCode c with
    | none =>
      rw [declaredLength_unknown hc] at h ⊢
      omega
    | some r =>
      by_cases hr : r = .write
      · subst hr
        simp only [declaredLength, hc] at h ⊢
        by_cases h5 : 5 < (c :: args).length
        · have hgrowth : writeGrowth (c :: (args ++ behind)) = writeGrowth (c :: args) := by
            unfold writeGrowth
            rw [← List.cons_append, List.getElem?_append_left h5]
          rw [hgrowth] at h
          omega
        · simp only [fixedLength]
          omega
      · have hsame : declaredLength (c :: args) = declaredLength (c :: (args ++ behind)) := by
          simp only [declaredLength, hc]
        rw [hsame]
        omega

/-- A port whose write frame has brought `bytes`. -/
def collecting (p : Port) (limit : Nat) (bytes : List Byte) (stall : Timer) (bus : BusOut) (s : State) : State :=
  s.setIface p { s.ifaces.get p with frame := .receiving limit bytes, stall := stall, bus := bus }

/-- The row of a whole data byte. -/
abbrev byteRow (p : Port) (b : Byte) : Instr := .dataByteReceived p (.byte b)

section
variable {limit : Nat} {bytes : List Byte} {stall : Timer} {bus : BusOut}

theorem collecting_frame : ((collecting p limit bytes stall bus s).ifaces.get p).frame = .receiving limit bytes := by
  simp [collecting]

theorem execAll_byteRow_of_room (b : Byte) (rest : List Instr) (hl : bytes.length < declaredLength bytes) :
    execAll (byteRow p b :: rest) (collecting p limit bytes stall bus s)
      = execAll rest (collecting p limit (bytes ++ [b]) (Timer.load limit) .acknowledged s) := by
  show execAll rest (receiveByte p b _) = _
  rw [receiveByte_of_room collecting_frame b hl]
  simp [collecting]

theorem execAll_byteRow_of_surplus (b : Byte) (rest : List Instr) (hl : declaredLength bytes ≤ bytes.length) :
    execAll (byteRow p b :: rest) (collecting p limit bytes stall bus s)
      = execAll rest (collecting p limit bytes (Timer.load limit) .notAcknowledged s) := by
  show execAll rest (receiveByte p b _) = _
  rw [receiveByte_of_surplus collecting_frame b hl]
  simp [collecting]

theorem execAll_surplus (hl : declaredLength bytes ≤ bytes.length) (surplus : List Byte) :
    execAll (surplus.map (byteRow p)) (collecting p limit bytes (Timer.load limit) bus s)
      = .next (collecting p limit bytes (Timer.load limit) (if surplus.isEmpty then bus else .notAcknowledged) s) := by
  induction surplus generalizing bus with
  | nil => rfl
  | cons b rest ih =>
    rw [List.map_cons, execAll_byteRow_of_surplus b _ hl, ih]
    simp

/-- The rest of a complete request is stored behind what has arrived, byte by byte. -/
theorem execAll_complete {behind : List Byte} (hb : behind ≠ [])
    (h : (bytes ++ behind).length = declaredLength (bytes ++ behind)) (rows : List Instr) :
    execAll (behind.map (byteRow p) ++ rows) (collecting p limit bytes stall bus s)
      = execAll rows (collecting p limit (bytes ++ behind) (Timer.load limit) .acknowledged s) := by
  induction behind generalizing bytes stall bus with
  | nil => exact absurd rfl hb
  | cons b rest ih =>
    rw [List.map_cons, List.cons_append, execAll_byteRow_of_room b _ (length_lt_declaredLength hb h)]
    have hsplit : bytes ++ b :: rest = bytes ++ [b] ++ rest := by simp
    cases rest with
    | nil => rfl
    | cons b' rest' =>
      rw [hsplit] at h ⊢
      exact ih (List.cons_ne_nil _ _) h

end

/-- Settles O20: one byte or edge by the declared length, and a run of bytes by induction on the bytes still to come. -/
theorem dataBytesAreStoredToTheDeclaredLength : Obligations.DataBytesAreStoredToTheDeclaredLength := by
  refine ⟨fun p b s limit bytes hf => ⟨fun hl => ?_, fun hl => ?_, ?_⟩, fun p s hi b a => ⟨?_, ?_⟩,
    fun p s limit bytes surplus hf hl => ?_⟩
  · exact congrArg _ (receiveByte_of_room hf b hl)
  · exact congrArg _ (receiveByte_of_surplus hf b hl)
  · have hedge : receiveClocked p .edge s = clockEdge p s := by simp only [receiveClocked, hf]
    exact congrArg _ (hedge.trans ((clockEdge_cases p s).1 limit (.inl ⟨bytes, hf⟩)))
  · refine congrArg _ (receiveClocked_of (P := fun t => t = s) rfl (fun _ _ _ h => ?_) (fun _ _ _ h => ?_))
    all_goals rw [hi] at h; cases h
  · refine congrArg _ (sendClocked_of (P := fun t => t = s) rfl (fun _ _ _ h => ?_) (fun _ _ _ h => ?_))
    all_goals rw [hi] at h; cases h
  · have hstart : s = collecting p limit [] (s.ifaces.get p).stall (s.ifaces.get p).bus s := by
      rw [collecting, ← hf, State.setIface_get]
    have hne : bytes ≠ [] := by
      rintro rfl
      exact absurd hl (by decide)
    conv_lhs => rw [hstart]
    rw [List.map_append]
    exact (execAll_complete (bytes := []) hne hl _).trans (execAll_surplus hl.ge surplus)

end Sys2Proof.Machine
end

section
/-! SUPPORT. Lookup and visibility over a directory in ascending tag order, as reading uses them. -/

namespace Sys2Proof.Machine

/-! ### Chains of a directory in ascending tag order -/

section
variable {dir : List DirSlot}

theorem chainOf_cons_self (d : DirSlot) (rest : List DirSlot) : chainOf (d :: rest) d.tag = d.chain := by
  simp [chainOf]

theorem chainOf_cons_of_ne {d : DirSlot} {tag : Tag} (h : d.tag ≠ tag) (rest : List DirSlot) :
    chainOf (d :: rest) tag = chainOf rest tag := by
  simp [chainOf, h]

theorem chainOf_of_not_mem {tag : Tag} (h : ∀ d ∈ dir, d.tag ≠ tag) : chainOf dir tag = [] := by
  have hn : dir.find? (fun d => d.tag == tag) = none := by simpa [List.find?_eq_none] using h
  simp only [chainOf, hn]

/-- A chain that is not empty is that of a slot. -/
theorem exists_slot_of_chainOf_ne_nil {tag : Tag} (h : chainOf dir tag ≠ []) :
    ∃ d ∈ dir, d.tag = tag ∧ chainOf dir tag = d.chain := by
  unfold chainOf at h ⊢
  split at h
  · exact absurd rfl h
  next d hd => exact ⟨d, List.mem_of_find?_eq_some hd, by simpa using List.find?_some hd, rfl⟩

variable (hdir : (dir.map DirSlot.tag).Pairwise (· < ·))
include hdir

/-- In a directory in ascending tag order the chain of a slot's tag is the slot's own. -/
theorem chainOf_of_mem {d : DirSlot} (hd : d ∈ dir) : chainOf dir d.tag = d.chain := by
  induction dir with
  | nil => cases hd
  | cons x rest ih =>
    rw [List.map_cons, List.pairwise_cons] at hdir
    rcases List.mem_cons.mp hd with rfl | hd
    · exact chainOf_cons_self d rest
    · have hlt := hdir.1 d.tag (List.mem_map_of_mem hd)
      rw [chainOf_cons_of_ne (fun h => absurd hlt (h ▸ BitVec.lt_irrefl _)), ih hdir.2 hd]

theorem slot_unique {d d' : DirSlot} (hd : d ∈ dir) (hd' : d' ∈ dir) (h : d.tag = d'.tag) : d = d' := by
  have hnodup : (dir.map DirSlot.tag).Nodup := hdir.imp (fun {a b} (hlt : a < b) (he : a = b) => BitVec.lt_irrefl b (he ▸ hlt))
  exact List.inj_on_of_nodup_map hnodup hd hd' h

end

/-! ### Visibility (R17) -/

/-- The version visible at a generation is the newest whose generation is at most it. -/
theorem versionAt_eq_some_iff {chain : List Version} {view : Gen} {v : Version} : versionAt chain view = some v ↔
    ∃ newer older, chain = newer ++ v :: older ∧ v.gen ≤ view ∧ ∀ w ∈ newer, view < w.gen := by
  simp only [versionAt, List.find?_eq_some_iff_append, decide_eq_true_eq, Bool.not_eq_true', decide_eq_false_iff_not,
    BitVec.not_le]
  constructor
  · rintro ⟨hv, newer, older, hc, hn⟩
    exact ⟨newer, older, hc, hv, hn⟩
  · rintro ⟨newer, older, hc, hv, hn⟩
    exact ⟨hv, newer, older, hc, hn⟩

theorem visibleAt_eq_some_iff {chain : List Version} {view : Gen} {v : Version} :
    visibleAt chain view = some v ↔ v.isTombstone = false ∧ versionAt chain view = some v := by
  unfold visibleAt
  cases hv : versionAt chain view with
  | none => simp
  | some w =>
    by_cases ht : w.isTombstone = true
    · simp only [ht, if_true]
      constructor
      · rintro ⟨⟩
      · rintro ⟨hf, he⟩
        cases he
        rw [ht] at hf
        cases hf
    · have hf : w.isTombstone = false := by simpa using ht
      simp only [hf, Bool.false_eq_true, if_false, Option.some.injEq]
      exact ⟨by rintro rfl; exact ⟨hf, rfl⟩, fun h => h.2⟩

theorem visible_eq_some_iff {dir : List DirSlot} {tag : Tag} {view : Gen} {v : Version} :
    visible dir tag view = some v ↔ v.isTombstone = false
      ∧ ∃ newer older, chainOf dir tag = newer ++ v :: older ∧ v.gen ≤ view ∧ ∀ w ∈ newer, view < w.gen := by
  rw [visible, visibleAt_eq_some_iff, versionAt_eq_some_iff]

theorem visibleAt_nil (view : Gen) : visibleAt [] view = none := rfl

/-! ### The visible records in ascending tag order (R57) -/

section
variable {dir : List DirSlot}

theorem exists_slot_of_mem_visibleRecords {view : Gen} {x : Tag × Version} (h : x ∈ visibleRecords dir view) :
    ∃ d ∈ dir, d.tag = x.1 ∧ visibleAt d.chain view = some x.2 := by
  simp only [visibleRecords, List.mem_filterMap, Option.map_eq_some_iff] at h
  obtain ⟨d, hd, v, hv, rfl⟩ := h
  exact ⟨d, hd, rfl, hv⟩

/-- Tags rise along the visible records. -/
theorem visibleRecords_rise (hdir : (dir.map DirSlot.tag).Pairwise (· < ·)) (view : Gen) :
    (visibleRecords dir view).Pairwise (fun x y => x.1 < y.1) := by
  rw [List.pairwise_map] at hdir
  refine List.Pairwise.filterMap _ ?_ hdir
  intro d d' hlt x hx y hy
  simp only [Option.map_eq_some_iff] at hx hy
  obtain ⟨v, -, rfl⟩ := hx
  obtain ⟨w, -, rfl⟩ := hy
  exact hlt

theorem mem_visibleRecords_iff (hdir : (dir.map DirSlot.tag).Pairwise (· < ·)) {view : Gen} {tag : Tag} {v : Version} :
    (tag, v) ∈ visibleRecords dir view ↔ visible dir tag view = some v := by
  constructor
  · intro h
    obtain ⟨d, hd, ht, hv⟩ := exists_slot_of_mem_visibleRecords h
    obtain rfl : d.tag = tag := ht
    rw [visible, chainOf_of_mem hdir hd, hv]
  · intro h
    have hne : chainOf dir tag ≠ [] := by
      intro hn
      rw [visible, hn] at h
      cases h
    obtain ⟨d, hd, rfl, hc⟩ := exists_slot_of_chainOf_ne_nil hne
    rw [visible, hc] at h
    simp only [visibleRecords, List.mem_filterMap, Option.map_eq_some_iff]
    exact ⟨d, hd, v, h, rfl⟩

/-- The first of a rising list at or above a position is the lowest of its members there. -/
theorem find_rising_eq_some_iff {xs : List (Tag × Version)} (h : xs.Pairwise (fun x y => x.1 < y.1)) {position : Tag}
    {x : Tag × Version} : xs.find? (fun y => decide (position ≤ y.1)) = some x
      ↔ position ≤ x.1 ∧ x ∈ xs ∧ ∀ y ∈ xs, position ≤ y.1 → ¬ y.1 < x.1 := by
  induction xs with
  | nil => simp
  | cons a rest ih =>
    rw [List.pairwise_cons] at h
    by_cases ha : position ≤ a.1
    · rw [List.find?_cons_of_pos (by simpa using ha), Option.some.injEq]
      constructor
      · rintro rfl
        refine ⟨ha, List.mem_cons_self, fun y hy _ hlt => ?_⟩
        rcases List.mem_cons.mp hy with rfl | hy
        · exact BitVec.lt_irrefl _ hlt
        · exact BitVec.lt_irrefl _ (BitVec.lt_trans hlt (h.1 y hy))
      · rintro ⟨-, hmem, hleast⟩
        rcases List.mem_cons.mp hmem with rfl | hx
        · rfl
        · exact absurd (h.1 x hx) (hleast a List.mem_cons_self ha)
    · rw [List.find?_cons_of_neg (by simpa using ha), ih h.2]
      constructor
      · rintro ⟨hp, hmem, hleast⟩
        refine ⟨hp, List.mem_cons_of_mem _ hmem, fun y hy hpy => ?_⟩
        rcases List.mem_cons.mp hy with rfl | hy
        · exact absurd hpy ha
        · exact hleast y hy hpy
      · rintro ⟨hp, hmem, hleast⟩
        rcases List.mem_cons.mp hmem with rfl | hx
        · exact absurd hp ha
        · exact ⟨hp, hx, fun y hy => hleast y (List.mem_cons_of_mem _ hy)⟩

variable (hdir : (dir.map DirSlot.tag).Pairwise (· < ·))
include hdir

/-- The next record of a SCAN is the visible one of the lowest tag at or above the position (R56). -/
theorem nextVisible_eq_some_iff {view : Gen} {position tag : Tag} {v : Version} :
    nextVisible dir view position = some (tag, v) ↔ position ≤ tag ∧ visible dir tag view = some v
      ∧ ∀ lower, position ≤ lower → lower < tag → visible dir lower view = none := by
  rw [nextVisible, find_rising_eq_some_iff (visibleRecords_rise hdir view), mem_visibleRecords_iff hdir]
  refine and_congr_right fun _ => and_congr_right fun _ => ⟨fun h lower hp hlt => ?_, fun h y hy hp hlt => ?_⟩
  · cases hv : visible dir lower view with
    | none => rfl
    | some w => exact absurd hlt (h (lower, w) ((mem_visibleRecords_iff hdir).mpr hv) hp)
  · have hv := (mem_visibleRecords_iff (tag := y.1) (v := y.2) hdir).mp hy
    rw [h y.1 hp hlt] at hv
    cases hv

theorem nextVisible_eq_none_iff {view : Gen} {position : Tag} :
    nextVisible dir view position = none ↔ ∀ tag, position ≤ tag → visible dir tag view = none := by
  simp only [nextVisible, List.find?_eq_none, decide_eq_true_eq]
  constructor
  · intro h tag hp
    cases hv : visible dir tag view with
    | none => rfl
    | some w => exact absurd hp (h (tag, w) ((mem_visibleRecords_iff hdir).mpr hv))
  · intro h x hx hp
    have hv := (mem_visibleRecords_iff (tag := x.1) (v := x.2) hdir).mp hx
    rw [h x.1 hp] at hv
    cases hv

end

end Sys2Proof.Machine
end

section
/-! SUPPORT. Reading: the start of a read frame, its bytes, and the requests of chapter 3; then the statements about
them. -/

namespace Sys2Proof.Machine

variable {p : Port} {s : State}

/-! ### The start of a read frame (R171) -/

/-- A read frame's start on an idle port at its own address, from what step 2 of R171 leaves. -/
theorem exec_readFrameStart {address : BitVec 7} {u : State} {source : FrameSource} (hr : s.inReset = false)
    (hi : (s.ifaces.get p).frame = .idle) (ha : address.toNat = 0x58 + s.adr.toNat)
    (hb : bindFrame p ((s.ifaces.get p).stream != .closed) s = u) (hu : u.ifaces = s.ifaces)
    (hsource : frameSource p u = source) :
    exec (.readFrameStart p address) s = .next (u.setIface p { s.ifaces.get p with
      frame := .sending (s.ifaces.get p).config.stallLimit ⟨source, 0, false⟩
      stall := Timer.load (s.ifaces.get p).config.stallLimit
      bus := .acknowledged }) := by
  have hstart : startFrame beginSending p address s = driveBus p .acknowledged (beginSending p s) := by
    rw [startFrame_eq hr, endOpenFrame_of_idle hi, if_pos ((portAddress_iff address s).mpr ha)]
  refine congrArg Host.Outcome.next (hstart.trans ?_)
  simp only [beginSending, hb, hsource, driveBus, State.setIface_setIface, State.setIface_ifaces, PortMap.get_set_self, hu]

theorem frameSource_of_closed (h : (s.ifaces.get p).stream = .closed) : frameSource p s = .buffered := by
  simp only [frameSource, h]

theorem frameSource_of_lapsed (h : (s.ifaces.get p).stream ≠ .closed) (hs : (s.snaps.get p).state = .lapsed) :
    frameSource p s = .streaming .lapsed 0#32 := by
  have hv : frameView p s = none := by simp only [frameView, hs]
  cases hst : (s.ifaces.get p).stream with
  | closed => exact absurd hst h
  | read tag offset => simp only [frameSource, hst, hv]
  | scan position => simp only [frameSource, hst, hv]

theorem frameSource_of_read {tag : Tag} {offset : Nat} {view : Gen} (h : (s.ifaces.get p).stream = .read tag offset)
    (hv : frameView p s = some view) :
    frameSource p s = .streaming (readResult s.directory tag offset view) view := by
  simp only [frameSource, h, hv]

theorem frameSource_of_scan {position : Tag} {view : Gen} (h : (s.ifaces.get p).stream = .scan position)
    (hv : frameView p s = some view) :
    frameSource p s = .streaming (scanResult s.directory position view) view := by
  simp only [frameSource, h, hv]

theorem readFrameOpen_of_idle (h : (s.ifaces.get p).frame = .idle) : readFrameOpen p s = false := by
  simp only [readFrameOpen, h]

theorem lapse_ifaces (p : Port) (g : Gen) (s : State) : (lapse p g s).ifaces = s.ifaces := rfl

theorem lapse_state (p : Port) (g : Gen) (s : State) : ((lapse p g s).snaps.get p).state = .lapsed := by
  simp [lapse]

theorem frameView_setSnap_held {x : Snap} {g : Gen} (h : x.state = .held g) : frameView p (s.setSnap p x) = some g := by
  simp only [frameView, State.setSnap_snaps, PortMap.get_set_self, h]

theorem frameView_setSnap_frame {x : Snap} {g : Gen} (h : x.state = .frame g) :
    frameView p (s.setSnap p x) = some g := by
  simp only [frameView, State.setSnap_snaps, PortMap.get_set_self, h]

/-! ### The result that a read frame's start fixes (R54, R57) -/

theorem readResult_of_none {dir : List DirSlot} {tag : Tag} {view : Gen} (h : visible dir tag view = none) (offset : Nat) :
    readResult dir tag offset view = .absent := by
  simp only [readResult, h]

theorem readResult_of_some {dir : List DirSlot} {tag : Tag} {view : Gen} {v : Version}
    (h : visible dir tag view = some v) (offset : Nat) :
    readResult dir tag offset view = if v.length ≤ offset then .atEnd else .ok := by
  simp only [readResult, h]

theorem scanResult_eq (dir : List DirSlot) (position : Tag) (view : Gen) :
    scanResult dir position view = if (nextVisible dir view position).isSome then .ok else .atEnd := by
  unfold scanResult
  cases nextVisible dir view position <;> rfl

theorem nextVisible_isSome_iff {dir : List DirSlot} (hdir : (dir.map DirSlot.tag).Pairwise (· < ·)) {view : Gen}
    {position : Tag} : (nextVisible dir view position).isSome ↔ ∃ tag, position ≤ tag ∧ visible dir tag view ≠ none := by
  rw [Option.isSome_iff_ne_none, ne_eq, nextVisible_eq_none_iff hdir]
  push Not
  rfl

/-- Settles O18: step 2 of R171 by the slot's state, then the source that the stream and the view fix. -/
theorem readFrameStartFixesItsSource : Obligations.ReadFrameStartFixesItsSource := by
  refine ⟨fun p address s hr hi ha => ?_, fun dir tag offset view => ⟨fun h => readResult_of_none h offset,
    fun v h => ⟨fun hl => ?_, fun hl => ?_⟩, fun v => visible_eq_some_iff⟩, fun dir position view hdir => ⟨fun h => ?_, fun h => ?_⟩⟩
  · obtain ⟨hheld, hfree, hlapsed⟩ := bindFrame_cases p ((s.ifaces.get p).stream != .closed) s (readFrameOpen_of_idle hi)
    refine ⟨fun g hs hh => ⟨fun hc => ?_, fun hc => ?_⟩, fun hc => ⟨fun g hs hh => ?_, fun hs => ?_⟩,
      fun tag offset hst => ⟨fun g hs hh => ?_, fun hs => ?_, fun hs => ?_⟩,
      fun position hst => ⟨fun g hs hh => ?_, fun hs => ?_, fun hs => ?_⟩⟩
    · exact exec_readFrameStart hr hi ha ((hheld g hs).1 hh) (lapse_ifaces p g s)
        (frameSource_of_closed (s := lapse p g s) hc)
    · exact exec_readFrameStart hr hi ha ((hheld g hs).1 hh) (lapse_ifaces p g s)
        (frameSource_of_lapsed (s := lapse p g s) hc (lapse_state p g s))
    · exact exec_readFrameStart hr hi ha ((hheld g hs).2 hh) rfl (frameSource_of_closed (s := s.setSnap p _) hc)
    · have hb : bindFrame p ((s.ifaces.get p).stream != .closed) s = s := by
        rcases hs with hs | hs
        · rw [hfree hs, hc]
          rfl
        · exact hlapsed hs
      exact exec_readFrameStart hr hi ha hb rfl (frameSource_of_closed hc)
    · exact exec_readFrameStart hr hi ha ((hheld g hs).2 hh) rfl
        (frameSource_of_read (s := s.setSnap p _) hst (frameView_setSnap_held hs))
    · exact exec_readFrameStart hr hi ha (by rw [hfree hs, hst]; rfl) rfl
        (frameSource_of_read (s := s.setSnap p _) hst (frameView_setSnap_frame rfl))
    · exact exec_readFrameStart hr hi ha (hlapsed hs) rfl (frameSource_of_lapsed (by simp [hst]) hs)
    · exact exec_readFrameStart hr hi ha ((hheld g hs).2 hh) rfl
        (frameSource_of_scan (s := s.setSnap p _) hst (frameView_setSnap_held hs))
    · exact exec_readFrameStart hr hi ha (by rw [hfree hs, hst]; rfl) rfl
        (frameSource_of_scan (s := s.setSnap p _) hst (frameView_setSnap_frame rfl))
    · exact exec_readFrameStart hr hi ha (hlapsed hs) rfl (frameSource_of_lapsed (by simp [hst]) hs)
  · rw [readResult_of_some h, if_pos hl]
  · rw [readResult_of_some h, if_neg (Nat.not_le.mpr hl)]
  · rw [scanResult_eq, if_neg (mt (nextVisible_isSome_iff hdir).mp h)]
  · rw [scanResult_eq, if_pos ((nextVisible_isSome_iff hdir).mpr h)]

/-! ### Bytes clocked out (R172, R173) -/

theorem sendByte_of_silent {limit : Nat} {f : ReadFrame} (hf : (s.ifaces.get p).frame = .sending limit f)
    (hs : f.silent = true) (acknowledged : Bool) : sendByte p acknowledged s
      = s.setIface p { s.ifaces.get p with stall := Timer.load limit, bus := .released } := by
  simp only [sendByte, hf, hs, if_true]

theorem sendByte_of_sending {limit n : Nat} {source : FrameSource}
    (hf : (s.ifaces.get p).frame = .sending limit ⟨source, n, false⟩) {b : Byte} {stream : Stream}
    (hb : frameByte s (s.ifaces.get p) ⟨source, n, false⟩ = (b, stream)) (acknowledged : Bool) :
    sendByte p acknowledged s = s.setIface p { s.ifaces.get p with
      frame := .sending limit ⟨source, n + 1, !acknowledged⟩
      stall := Timer.load limit
      bus := .sent b
      stream := stream } := by
  simp [sendByte, hf, hb]

section
variable {i : Iface} {n : Nat} {silent : Bool} {result : Result} {view : Gen}

theorem frameByte_of_header (hn : n < 6) : frameByte s i ⟨.streaming result view, n, silent⟩
    = ((replyHeader result i.stream.code view).getD n 0xFF#8, i.stream) := by
  simp only [frameByte, hn, if_true]

theorem frameByte_of_refused (hn : 6 ≤ n) (hr : result ≠ .ok) : frameByte s i ⟨.streaming result view, n, silent⟩
    = (0xFF#8, i.stream) := by
  simp only [frameByte, Nat.not_lt.mpr hn, if_false, hr]

theorem frameByte_of_ok (hn : 6 ≤ n) : frameByte s i ⟨.streaming .ok view, n, silent⟩
    = streamByte s i.stream view (n - 6) := by
  simp only [frameByte, Nat.not_lt.mpr hn, if_false, if_true]

end

/-- Within the body of a version its bytes are those of the body. -/
theorem Version.body_getD {v : Version} {offset : Nat} (h : offset < v.length) (pool : Pool) (d : Byte) :
    (v.body pool).getD offset d = v.bodyByte pool offset := by
  simp [Version.body, h, List.getD_eq_getElem?_getD]

/-- Settles O22: the byte by its frame's source, and the next record of a SCAN over the directory's order. -/
theorem bytesClockedOutFollowTheSource : Obligations.BytesClockedOutFollowTheSource := by
  refine ⟨fun p acknowledged s limit n => ?_, fun p s limit f hf => ?_,
    fun dir view position hdir => ⟨fun tag v => nextVisible_eq_some_iff hdir, nextVisible_eq_none_iff hdir⟩, rfl, rfl, rfl⟩
  · have sends : ∀ {source : FrameSource} {b : Byte} {stream : Stream},
        (s.ifaces.get p).frame = .sending limit ⟨source, n, false⟩ →
        frameByte s (s.ifaces.get p) ⟨source, n, false⟩ = (b, stream) →
        exec (.byteClockedOut p (.byte acknowledged)) s = .next (s.setIface p { s.ifaces.get p with
          frame := .sending limit ⟨source, n + 1, !acknowledged⟩
          stall := Timer.load limit
          bus := .sent b
          stream := stream }) := fun hf hb => congrArg Host.Outcome.next (sendByte_of_sending hf hb acknowledged)
    refine ⟨fun source hf => congrArg Host.Outcome.next (sendByte_of_silent hf rfl acknowledged),
      fun hf => sends hf rfl, fun result view hf => ⟨fun hn code hcode => ?_, fun hn hr => ?_, fun hn hr => ⟨?_, ?_⟩⟩⟩
    · have hc : (s.ifaces.get p).stream.code = code := by
        rcases hcode with ⟨tag, offset, hst, rfl⟩ | ⟨position, hst, rfl⟩ <;> rw [hst] <;> rfl
      exact sends hf ((frameByte_of_header hn).trans (by rw [hc]; rfl))
    · exact sends hf (frameByte_of_refused hn hr)
    · intro tag offset v hst hv
      subst hr
      refine ⟨fun hl => sends hf ((frameByte_of_ok hn).trans ?_), fun hl => sends hf ((frameByte_of_ok hn).trans ?_)⟩
      · simp only [hst, streamByte, hv, hl, if_true, Version.body_getD hl]
      · simp only [hst, streamByte, hv, Nat.not_lt.mpr hl, if_false]
    · intro position hst
      subst hr
      refine ⟨fun hv => sends hf ((frameByte_of_ok hn).trans ?_),
        fun tag v head hv hh => sends hf ((frameByte_of_ok hn).trans ?_)⟩
      · simp only [hst, streamByte, hv]
      · simp only [hst, streamByte, hv, scanEntry, hh, Option.getD_some]
  · have hedge : sendClocked p .edge s = clockEdge p s := by simp only [sendClocked, hf]
    exact congrArg Host.Outcome.next (hedge.trans ((clockEdge_cases p s).1 limit (.inr ⟨f, hf⟩)))

/-! ### SNAP_OPEN and SNAP_CLOSE (R39, R40) -/

theorem releaseBinding_of_free (h : (s.snaps.get p).state = .free) :
    releaseBinding p s = s.setSnap p ⟨.free, none, false⟩ := by
  simp only [releaseBinding, h]
  rfl

theorem releaseBinding_of_bound (h : (s.snaps.get p).state ≠ .free) :
    releaseBinding p s = retireOnRelease (s.setSnap p ⟨.free, none, false⟩) := by
  unfold releaseBinding
  split
  next hf => exact absurd hf h
  all_goals rfl

theorem loadHold_judgedState (p : Port) (s : State) : loadHold p (judgedState p s) = loadHold p s := by
  simp [loadHold, judgedIface]

theorem exec_snapOpen (h : readyWith p [0x10#8] s) : exec (.snapOpen p) s = .next (replied p .ok 0x10#8 s.g
    [(s.snaps.get p).state.code] ((releaseBinding p s).setSnap p ⟨.held s.g, loadHold p s, false⟩)) := by
  refine exec_requestRow_taken (r := .snapOpen) (a := ⟨.ok, [(s.snaps.get p).state.code]⟩) h le_rfl ?_
  show takeSnapOpen p (judgedState p s) = _
  rw [takeSnapOpen, loadHold_judgedState]
  refine releaseBinding_of (P := fun u => (u.setSnap p _, _) = _) (fun hs => ?_) (fun hs => ?_)
  · rw [releaseBinding_of_free (s := s) hs]
    simp [freeSlot, State.setSnap_setIface]
    rfl
  · rw [releaseBinding_of_bound (s := s) hs]
    rfl

theorem exec_snapClose (h : readyWith p [0x11#8] s) : exec (.snapClose p) s = .next (replied p .ok 0x11#8 s.g
    [(s.snaps.get p).state.code] (releaseBinding p s)) := by
  refine exec_requestRow_taken (r := .snapClose) (a := ⟨.ok, [(s.snaps.get p).state.code]⟩) h le_rfl ?_
  show takeSnapClose p (judgedState p s) = _
  rw [takeSnapClose]
  refine releaseBinding_of (P := fun u => (u, _) = _) (fun hs => ?_) (fun hs => ?_)
  · rw [releaseBinding_of_free (s := s) hs]
    rfl
  · rw [releaseBinding_of_bound (s := s) hs]
    rfl

/-- Settles O27: both requests by the release of the slot's old binding. -/
theorem snapOpenBindsAndSnapCloseFrees : Obligations.SnapOpenBindsAndSnapCloseFrees := by
  intro p s
  refine ⟨fun h => ⟨fun hs => ?_, fun g hs => ?_, fun hs => ?_⟩, fun h => ⟨fun hs => ?_, fun g hs => ?_, fun hs => ?_⟩⟩
  · rw [exec_snapOpen h, releaseBinding_of_free hs, State.setSnap_setSnap, hs]
    rfl
  · rw [exec_snapOpen h, releaseBinding_of_bound (by simp [hs]), hs]
    rfl
  · rw [exec_snapOpen h, releaseBinding_of_bound (by simp [hs]), hs]
    rfl
  · rw [exec_snapClose h, releaseBinding_of_free hs, hs]
    rfl
  · rw [exec_snapClose h, releaseBinding_of_bound (by simp [hs]), hs]
    rfl
  · rw [exec_snapClose h, releaseBinding_of_bound (by simp [hs]), hs]
    rfl

/-! ### STAT (R52, Table 10-6) -/

theorem exec_stat {tag : Tag} (h : readyWith p (0x12#8 :: be16 tag) s) : exec (.stat p) s
    = .next (replied p (statAnswer p tag s).result 0x12#8 s.g (statAnswer p tag s).payload s) := by
  refine exec_requestRow_taken (r := .stat) (a := statAnswer p tag s) h le_rfl ?_
  show takeStat p (argTag (be16 tag)) (judgedState p s) = _
  rw [argTag_be16_only]
  rfl

theorem recordTag_eq_false {tag : Tag} (h : tag = 0x0000#16 ∨ tag = 0xFFFF#16) : recordTag tag = false := by
  rcases h with rfl | rfl <;> rfl

theorem statAnswer_of_range {tag : Tag} (h : tag = 0x0000#16 ∨ tag = 0xFFFF#16) :
    statAnswer p tag s = ⟨.range, []⟩ := by
  simp only [statAnswer, recordTag_eq_false h]
  rfl

theorem statAnswer_of_lapsed {tag : Tag} (ht : recordTag tag = true) (h : (s.snaps.get p).state = .lapsed) :
    statAnswer p tag s = ⟨.lapsed, List.replicate 19 0x00#8⟩ := by
  have hv : statView p s = none := by simp only [statView, h]
  simp only [statAnswer, ht, if_true, hv]
  rfl

theorem statAnswer_of_none {tag : Tag} {view : Gen} (ht : recordTag tag = true) (h : statView p s = some view)
    (hv : visible s.directory tag view = none) : statAnswer p tag s = ⟨.absent, statEmpty view⟩ := by
  simp only [statAnswer, ht, if_true, h, hv]

theorem statAnswer_of_some {tag : Tag} {view : Gen} {v : Version} (ht : recordTag tag = true)
    (h : statView p s = some view) (hv : visible s.directory tag view = some v) :
    statAnswer p tag s = ⟨.ok, statPayload view v⟩ := by
  simp only [statAnswer, ht, if_true, h, hv]

theorem statPayload_blob (view gen : Gen) (a : Attrs) (n : Nat) (pages : List PageNo) (crc : Crc) :
    statPayload view ⟨gen, .blob a n pages crc⟩
      = be32 view ++ [0x01#8, a.persist.code, a.writers.setWidth 8] ++ be16 (BitVec.ofNat 16 n)
        ++ be16 crc ++ be32 gen ++ [0x00#8, 0x00#8, 0x00#8, 0x00#8] := by
  have hzero : be32 0#32 = [0x00#8, 0x00#8, 0x00#8, 0x00#8] := by decide
  simp only [statPayload, Version.kind?, Version.attrs?, Version.length, Version.crc, Version.value, Kind.code, natBe16,
    byteOfWriters, hzero]

theorem statPayload_counter (view gen : Gen) (a : Attrs) (x : BitVec 32) (crc : Crc) :
    statPayload view ⟨gen, .counter a x crc⟩
      = be32 view ++ [0x02#8, a.persist.code, a.writers.setWidth 8, 0x00#8, 0x04#8] ++ be16 crc ++ be32 gen
        ++ be32 x := by
  have hfour : be16 4#16 = [0x00#8, 0x04#8] := by decide
  simp [statPayload, Version.kind?, Version.attrs?, Version.length, Version.crc, Version.value, Kind.code, natBe16,
    byteOfWriters, hfour]

/-- Settles O29: STAT by its tag, its view and the visible version. -/
theorem statAnswersFromTheView : Obligations.StatAnswersFromTheView := by
  intro p s tag h
  have hrow := exec_stat h
  refine ⟨fun hr => ?_, fun hzero hall => ?_⟩
  · rw [statAnswer_of_range hr] at hrow
    exact hrow
  · have ht : recordTag tag = true := (recordTag_iff tag).mpr ⟨hzero, hall⟩
    refine ⟨fun hs => ?_, fun view hs => ?_⟩
    · rw [statAnswer_of_lapsed ht hs] at hrow
      exact hrow
    · have hview : statView p s = some view := by
        rcases hs with hs | ⟨hs, rfl⟩ <;> simp only [statView, hs]
      refine ⟨fun hv => ?_, fun gen a n pages crc hv => ?_, fun gen a x crc hv => ?_⟩
      · rw [statAnswer_of_none ht hview hv] at hrow
        exact hrow
      · rw [statAnswer_of_some ht hview hv, statPayload_blob] at hrow
        exact hrow
      · rw [statAnswer_of_some ht hview hv, statPayload_counter] at hrow
        exact hrow

/-! ### READ and SCAN (R53, R56) -/

/-- Settles O30: both open a stream without a lookup. -/
theorem readAndScanOpenTheirStream : Obligations.ReadAndScanOpenTheirStream := by
  refine ⟨fun p s tag offset h => ?_, fun p s position h => ?_⟩
  · obtain ⟨hready, hframe⟩ := h
    have harg : takingOf .read p (be16 tag ++ be16 offset) (judgedState p s)
        = takeRead p tag offset.toNat (judgedState p s) := by
      have h2 := arg16_be16_be16 tag offset []
      simp only [List.append_nil] at h2
      rw [takingOf, requestRead, argTag_be16, h2]
    refine ⟨fun hr => ?_, fun hzero hall => ?_⟩
    · refine exec_requestRow_taken (r := .read) (a := Answer.bare .range) ⟨hready, hframe⟩ le_rfl ?_
      simp only [harg, takeRead, recordTag_eq_false hr]
      rfl
    · have ht : recordTag tag = true := (recordTag_iff tag).mpr ⟨hzero, hall⟩
      have htaken : takingOf .read p (be16 tag ++ be16 offset) (judgedState p s)
          = (openStream p (.read tag offset.toNat) (judgedState p s), Answer.bare .ok) := by
        simp only [harg, takeRead, ht, if_true]
      have hrow := exec_requestRow .read p s
      rw [endRequest_taken (r := .read) hframe le_rfl (.inl hready) htaken] at hrow
      refine hrow.trans ?_
      simp [openStream, judgedIface, Answer.bare, requestCode]
  · obtain ⟨hready, hframe⟩ := h
    have htaken : takingOf .scan p (be16 position) (judgedState p s)
        = (openStream p (.scan position) (judgedState p s), Answer.bare .ok) := by
      rw [takingOf, requestScan, argTag_be16_only, takeScan]
    have hrow := exec_requestRow .scan p s
    rw [endRequest_taken (r := .scan) hframe le_rfl (.inl hready) htaken] at hrow
    refine hrow.trans ?_
    simp [openStream, judgedIface, Answer.bare, requestCode]

/-! ### The hold timer -/

/-- Settles O31: from what the hold timer's expiry does by the slot and the frame. -/
theorem holdExpiryLapsesOrDefers : Obligations.HoldExpiryLapsesOrDefers := by
  intro p s
  obtain ⟨hnot, -, hdue⟩ := expireHold_cases p s
  refine ⟨fun g hs hh => ?_, fun hh => congrArg Host.Outcome.next (hnot hh)⟩
  obtain ⟨hopen, hclosed⟩ := hdue g hs hh
  refine ⟨?_, fun hf => ?_⟩
  · rintro ⟨limit, f, hf⟩
    exact congrArg Host.Outcome.next (hopen (by simp only [readFrameOpen, hf]))
  · refine congrArg Host.Outcome.next (hclosed ?_)
    unfold readFrameOpen
    split
    next limit f hs => exact absurd hs (hf limit f)
    all_goals rfl

end Sys2Proof.Machine
end

section
/-! SUPPORT. The queue of waiting commands: no operation reads it and none changes it. -/

namespace Sys2Proof.Machine

/-- The state with another queue of waiting commands. -/
def withQueue (q : List Instr) (s : State) : State := { s with pending := q }

/-- An operation that neither reads nor changes the queue. -/
def Queueless (f : State → State) : Prop := ∀ q s, f (withQueue q s) = withQueue q (f s)

/-- The same for an operation that also answers. -/
def QueuelessAnswer (f : State → State × Answer) : Prop :=
  ∀ q s, f (withQueue q s) = (withQueue q (f s).1, (f s).2)

theorem withQueue_ite_state {c : Prop} [Decidable c] {q : List Instr} {x y x' y' : State} (hx : x' = withQueue q x)
    (hy : y' = withQueue q y) : (if c then x' else y') = withQueue q (if c then x else y) := by
  split
  · exact hx
  · exact hy

/-- A choice neither of whose branches reads or changes the queue. -/
theorem withQueue_ite {c : Prop} [Decidable c] {q : List Instr} {x y x' y' : State × Answer}
    (hx : x' = (withQueue q x.1, x.2)) (hy : y' = (withQueue q y.1, y.2)) :
    (if c then x' else y') = (withQueue q (if c then x else y).1, (if c then x else y).2) := by
  split
  · exact hx
  · exact hy

theorem Queueless.comp {f g : State → State} (hf : Queueless f) (hg : Queueless g) : Queueless (fun s => f (g s)) := by
  intro q s
  show f (g (withQueue q s)) = withQueue q (f (g s))
  rw [hg, hf]

variable {p : Port}

section
variable (q : List Instr) (s : State)
@[simp] theorem withQueue_inReset : (withQueue q s).inReset = s.inReset := rfl
@[simp] theorem withQueue_adr : (withQueue q s).adr = s.adr := rfl
@[simp] theorem withQueue_priv : (withQueue q s).priv = s.priv := rfl
@[simp] theorem withQueue_ifaces : (withQueue q s).ifaces = s.ifaces := rfl
@[simp] theorem withQueue_snaps : (withQueue q s).snaps = s.snaps := rfl
@[simp] theorem withQueue_slot4 : (withQueue q s).slot4 = s.slot4 := rfl
@[simp] theorem withQueue_g : (withQueue q s).g = s.g := rfl
@[simp] theorem withQueue_directory : (withQueue q s).directory = s.directory := rfl
@[simp] theorem withQueue_pool : (withQueue q s).pool = s.pool := rfl
@[simp] theorem withQueue_txns : (withQueue q s).txns = s.txns := rfl
@[simp] theorem withQueue_commitQueue : (withQueue q s).commitQueue = s.commitQueue := rfl
@[simp] theorem withQueue_engine : (withQueue q s).engine = s.engine := rfl
@[simp] theorem withQueue_notes : (withQueue q s).notes = s.notes := rfl
@[simp] theorem withQueue_image : (withQueue q s).image = s.image := rfl
@[simp] theorem withQueue_flash : (withQueue q s).flash = s.flash := rfl
@[simp] theorem withQueue_pending : (withQueue q s).pending = q := rfl
end

/-! ### Snapshots and the ends of frames -/

theorem closeFrame_queueless (p : Port) : Queueless (closeFrame p) := fun _ _ => rfl

theorem retireOnRelease_queueless : Queueless retireOnRelease := fun _ _ => rfl

theorem lapse_queueless (p : Port) (g : Gen) : Queueless (lapse p g) := fun _ _ => rfl

theorem releaseBinding_queueless (p : Port) : Queueless (releaseBinding p) := by
  intro q s
  simp only [releaseBinding, withQueue_snaps]
  split <;> rfl

theorem expireHold_queueless (p : Port) : Queueless (expireHold p) := by
  intro q s
  have hopen : readFrameOpen p (withQueue q s) = readFrameOpen p s := rfl
  simp only [expireHold, withQueue_snaps, hopen]
  split
  · split
    · split <;> rfl
    · rfl
  all_goals rfl

theorem endSending_queueless (p : Port) : Queueless (endSending p) := by
  intro q s
  simp only [endSending, closeFrame_queueless p q s, withQueue_snaps]
  split
  · rfl
  · split <;> rfl
  all_goals rfl

/-! ### Requests -/

theorem staging_queueless {act : State → Except Refused State}
    (h : ∀ q s, act (withQueue q s) = (act s).map (withQueue q)) : QueuelessAnswer (fun s => staging p (act s) s) := by
  intro q s
  simp only [staging, withQueue_txns, h]
  split
  · rfl
  · cases act s with
    | ok t => rfl
    | error e => cases e <;> rfl
  all_goals rfl

theorem actCreate_queueless (p : Port) (tag : Tag) (kind writers persist : Byte) (q : List Instr) (s : State) :
    actCreate p tag kind writers persist (withQueue q s)
      = (actCreate p tag kind writers persist s).map (withQueue q) := by
  simp only [actCreate, withQueue_txns, withQueue_directory]
  split
  · split
    · split
      · rfl
      · rfl
      · by_cases hroom : Config.maxIntents ≤ (s.txns.get p).intents.length
        · simp only [hroom, if_true]
          rfl
        · simp only [hroom, if_false]
          split <;> rfl
    · rfl
  · rfl

theorem findStart_queueless (p : Port) (tag : Tag) (q : List Instr) (s : State) :
    findStart p tag (withQueue q s) = findStart p tag s := rfl

theorem claimBody_queueless (p : Port) (tag : Tag) (start : Start)
    (change : Pool → StagedBody → Option (Pool × StagedBody)) (q : List Instr) (s : State) :
    claimBody p tag start change (withQueue q s) = (claimBody p tag start change s).map (withQueue q) := by
  simp only [claimBody, withQueue_txns, withQueue_pool]
  split <;> rfl

theorem actWrite_queueless (p : Port) (tag : Tag) (offset count : Nat) (data : List Byte) (q : List Instr) (s : State) :
    actWrite p tag offset count data (withQueue q s) = (actWrite p tag offset count data s).map (withQueue q) := by
  simp only [actWrite, findStart_queueless]
  split
  · split
    · rfl
    · split
      · exact claimBody_queueless ..
      · rfl
  · rfl

theorem actResize_queueless (p : Port) (tag : Tag) (length : Nat) (q : List Instr) (s : State) :
    actResize p tag length (withQueue q s) = (actResize p tag length s).map (withQueue q) := by
  simp only [actResize, findStart_queueless]
  split
  · split
    · rfl
    · exact claimBody_queueless ..
  · rfl

theorem permitted_queueless (p : Port) (a : Attrs) (q : List Instr) (s : State) :
    permitted (withQueue q s) p a = permitted s p a := rfl

theorem actAdd_queueless (p : Port) (tag : Tag) (delta : Int) (q : List Instr) (s : State) :
    actAdd p tag delta (withQueue q s) = (actAdd p tag delta s).map (withQueue q) := by
  simp only [actAdd, withQueue_txns, withQueue_directory, permitted_queueless]
  split
  · split
    · rfl
    · rfl
    · rfl
    · rfl
    · rfl
    · by_cases hroom : Config.maxIntents ≤ (s.txns.get p).intents.length
      · simp only [hroom, if_true]
        rfl
      · simp only [hroom, if_false]
        split
        · rfl
        · rfl
        · split
          · rw [apply_ite (Except.map (withQueue q))]
            rfl
          · rfl
          · rfl
  · rfl

theorem actDelete_queueless (p : Port) (tag : Tag) (q : List Instr) (s : State) :
    actDelete p tag (withQueue q s) = (actDelete p tag s).map (withQueue q) := by
  simp only [actDelete, withQueue_txns, withQueue_directory, permitted_queueless]
  split
  · split
    · rfl
    · rfl
    · rfl
    · rfl
    · by_cases hroom : Config.maxIntents ≤ (s.txns.get p).intents.length
      · simp only [hroom, if_true]
        rfl
      · simp only [hroom, if_false]
        split
        · rfl
        · rfl
        · split
          · rw [apply_ite (Except.map (withQueue q))]
            rfl
          · rfl
  · rfl

theorem resetTxn_queueless (p : Port) : Queueless (resetTxn p) := by
  intro q s
  simp only [resetTxn, withQueue_txns]
  split <;> rfl

theorem takePortReset_queueless (p : Port) : QueuelessAnswer (takePortReset p) := by
  intro q s
  simp only [takePortReset, resetTxn_queueless p q s, releaseBinding_queueless p q]
  rfl

theorem takeCheckpoint_queueless (p : Port) : QueuelessAnswer (takeCheckpoint p) := by
  intro q s
  have hp : privileged (withQueue q s) p = privileged s p := rfl
  simp only [takeCheckpoint, hp, withQueue_image]
  split
  · split
    · rfl
    · exact withQueue_ite rfl rfl
  · rfl

theorem takeCheckpointCancel_queueless (p : Port) : QueuelessAnswer (takeCheckpointCancel p) := by
  intro q s
  have hp : privileged (withQueue q s) p = privileged s p := rfl
  simp only [takeCheckpointCancel, hp, withQueue_image]
  split
  · split
    · rfl
    · split <;> rfl
  · rfl

/-- No block's taking of a request reads or changes the queue. -/
theorem takingOf_queueless (r : Request) (p : Port) (args : List Byte) : QueuelessAnswer (takingOf r p args) := by
  cases r with
  | deviceStatus => exact fun _ _ => rfl
  | configure =>
    intro q s
    simp only [takingOf, requestConfigure, takeConfigure]
    split <;> rfl
  | portReset => exact takePortReset_queueless p
  | flagClear =>
    intro q s
    simp only [takingOf, requestFlagClear, takeFlagClear, withQueue_notes]
    split <;> rfl
  | snapOpen =>
    intro q s
    simp only [takingOf, requestSnapOpen, takeSnapOpen, releaseBinding_queueless p q s]
    rfl
  | snapClose =>
    intro q s
    simp only [takingOf, requestSnapClose, takeSnapClose, releaseBinding_queueless p q s]
    rfl
  | stat => exact fun _ _ => rfl
  | read =>
    intro q s
    simp only [takingOf, requestRead, takeRead]
    split <;> rfl
  | scan => exact fun _ _ => rfl
  | beginTxn =>
    intro q s
    simp only [takingOf, requestBegin, takeBegin, withQueue_txns]
    split <;> rfl
  | create => exact staging_queueless (actCreate_queueless p _ _ _ _)
  | write => exact staging_queueless (actWrite_queueless p _ _ _ _)
  | resize => exact staging_queueless (actResize_queueless p _ _)
  | add => exact staging_queueless (actAdd_queueless p _ _)
  | delete => exact staging_queueless (actDelete_queueless p _)
  | commit =>
    intro q s
    simp only [takingOf, requestCommit, takeCommit, withQueue_txns]
    split
    · rfl
    · exact withQueue_ite rfl rfl
    all_goals rfl
  | abort =>
    intro q s
    simp only [takingOf, requestAbort, takeAbort, withQueue_txns]
    split <;> rfl
  | txnStatus =>
    intro q s
    simp only [takingOf, requestTxnStatus, takeTxnStatus, withQueue_txns]
    split <;> rfl
  | watch =>
    intro q s
    simp only [takingOf, requestWatch, takeWatch, withQueue_notes]
    split
    · exact withQueue_ite rfl (withQueue_ite rfl rfl)
    · rfl
  | unwatch =>
    intro q s
    simp only [takingOf, requestUnwatch, takeUnwatch, withQueue_notes]
    split
    · rfl
    · exact withQueue_ite rfl rfl
  | eventPeek => exact fun _ _ => rfl
  | eventAck => exact fun _ _ => rfl
  | checkpoint => exact takeCheckpoint_queueless p
  | checkpointCancel => exact takeCheckpointCancel_queueless p

theorem judge_queueless (r : Request) (p : Port) (buffer : List Byte) : QueuelessAnswer (judge r (takingOf r) p buffer) := by
  intro q s
  have hl : loading (withQueue q s) = loading s := rfl
  simp only [judge, hl, takingOf_queueless r p buffer.tail q s]
  split
  · rfl
  · split <;> rfl

theorem endWriteFrame_queueless (r : Request) (p : Port) (buffer : List Byte) :
    Queueless (endWriteFrame r (takingOf r) p buffer) := by
  intro q s
  have hc : endStream p (closeFrame p (withQueue q s)) = withQueue q (endStream p (closeFrame p s)) := rfl
  simp only [endWriteFrame, hc, judge_queueless r p buffer q]
  rfl

theorem endRequest_queueless (r : Request) (p : Port) : Queueless (endRequest r (takingOf r) p) := by
  intro q s
  simp only [endRequest, withQueue_ifaces]
  split
  · split
    · exact endWriteFrame_queueless r p _ q s
    · rfl
  all_goals rfl

/-! ### Frames -/

theorem endReceiving_queueless (p : Port) (buffer : List Byte) : Queueless (endReceiving p buffer) := by
  intro q s
  cases buffer with
  | nil => rfl
  | cons c args =>
    simp only [endReceiving]
    split
    · rfl
    · exact endWriteFrame_queueless _ p _ q s

theorem endOpenFrame_queueless (p : Port) : Queueless (endOpenFrame p) := by
  intro q s
  simp only [endOpenFrame, withQueue_ifaces]
  split
  · rfl
  · exact endReceiving_queueless p _ q s
  · exact endSending_queueless p q s

theorem bindSlot_queueless (p : Port) (streaming : Bool) : Queueless (bindSlot p streaming) := by
  intro q s
  simp only [bindSlot, withQueue_snaps]
  split
  · rfl
  · split <;> rfl
  all_goals rfl

theorem beginSending_queueless (p : Port) : Queueless (beginSending p) := by
  intro q s
  simp only [beginSending, bindFrame, withQueue_ifaces, expireHold_queueless p q s, bindSlot_queueless p _ q]
  rfl

theorem startFrame_queueless {begins : Port → State → State} (hb : Queueless (begins p)) (address : BitVec 7) :
    Queueless (startFrame begins p address) := by
  intro q s
  have ha : ∀ u, portAddress (withQueue q u) = portAddress u := fun _ => rfl
  simp only [startFrame, withQueue_inReset, endOpenFrame_queueless p q s, ha, hb q]
  split
  · rfl
  · split <;> rfl

theorem receiveClocked_queueless (p : Port) (b : Clocked Byte) : Queueless (receiveClocked p b) := by
  intro q s
  simp only [receiveClocked, withQueue_ifaces, receiveByte, clockEdge]
  split
  · split
    · split <;> rfl
    all_goals rfl
  · split <;> rfl
  all_goals rfl

theorem frameByte_queueless (i : Iface) (f : ReadFrame) (q : List Instr) (s : State) :
    frameByte (withQueue q s) i f = frameByte s i f := rfl

theorem sendClocked_queueless (p : Port) (a : Clocked Bool) : Queueless (sendClocked p a) := by
  intro q s
  simp only [sendClocked, withQueue_ifaces, sendByte, clockEdge, frameByte_queueless]
  split
  · split
    · split <;> rfl
    all_goals rfl
  · split <;> rfl
  all_goals rfl

theorem unknownFrameEnds_queueless (p : Port) : Queueless (unknownFrameEnds p) := by
  intro q s
  simp only [unknownFrameEnds, withQueue_ifaces]
  split
  · split <;> rfl
  all_goals rfl

theorem emptyFrameEnds_queueless (p : Port) : Queueless (emptyFrameEnds p) := by
  intro q s
  simp only [emptyFrameEnds, withQueue_ifaces]
  split <;> rfl

theorem readFrameEnds_queueless (p : Port) : Queueless (readFrameEnds p) := by
  intro q s
  simp only [readFrameEnds, withQueue_ifaces, endSending_queueless p q s]
  split <;> rfl

theorem expireStall_queueless (p : Port) : Queueless (expireStall p) := by
  intro q s
  simp only [expireStall, withQueue_ifaces, endSending_queueless p q s]
  split
  · split <;> rfl
  · rfl

/-! ### Timers and the commit engine -/

theorem tickAll_queueless : Queueless tickAll := by
  intro q s
  have hw : expiryWaits (withQueue q s) = expiryWaits s := rfl
  simp only [tickAll, withQueue_inReset, hw]
  split <;> rfl

theorem expireIdle_queueless (p : Port) : Queueless (expireIdle p) := by
  intro q s
  simp only [expireIdle, withQueue_txns]
  split
  · exact withQueue_ite_state rfl rfl
  all_goals rfl

theorem takeHead_head {s : State} {p : Port} {rest : List Port} (he : s.engine = .idle) (hq : s.commitQueue = p :: rest) :
    takeHead s = (match validate (takenState p rest s) ((takenState p rest s).txns.get p).intents with
      | some o => rejectTxn p o (takenState p rest s)
      | none => reserveTxn p (takenState p rest s)) := by
  unfold takeHead
  split
  next p' rest' _ hq' =>
    obtain ⟨rfl, rfl⟩ := List.cons_eq_cons.mp (hq.symm.trans hq')
    rfl
  next _ hq' => cases hq.symm.trans hq'
  next _ _ he' => cases he.symm.trans he'

theorem takeHead_queueless : Queueless takeHead := by
  intro q s
  cases he : s.engine with
  | digesting c => simp only [takeHead, withQueue_engine, he]
  | idle =>
    cases hq : s.commitQueue with
    | nil => simp only [takeHead, withQueue_engine, withQueue_commitQueue, he, hq]
    | cons p rest =>
      have hv : validate (takenState p rest (withQueue q s)) ((takenState p rest (withQueue q s)).txns.get p).intents
          = validate (takenState p rest s) ((takenState p rest s).txns.get p).intents := rfl
      rw [takeHead_head he hq, takeHead_head (s := withQueue q s) he hq, hv]
      cases validate (takenState p rest s) ((takenState p rest s).txns.get p).intents <;> rfl

theorem digestPage_queueless : Queueless digestPage := by
  intro q s
  simp only [digestPage, withQueue_engine]
  split <;> rfl

theorem foldl_queueless {α : Type} {f : State → α → State} (h : ∀ a, Queueless (fun s => f s a)) (xs : List α) :
    Queueless (fun s => xs.foldl f s) := by
  intro q s
  induction xs generalizing s with
  | nil => rfl
  | cons x xs ih =>
    have hx : f (withQueue q s) x = withQueue q (f s x) := h x q s
    show xs.foldl f (f (withQueue q s) x) = withQueue q (xs.foldl f (f s x))
    rw [hx]
    exact ih _

theorem endCommitter_queueless (p : Port) : Queueless (endCommitter p) := by
  intro q s
  simp only [endCommitter, withQueue_txns]
  split <;> rfl

theorem publishCommit_queueless (c : Commit) : Queueless (publishCommit c) := by
  intro q s
  have hinstall : ∀ intents, Queueless (fun t => List.foldl (installIntent c.port c.done) t intents) :=
    foldl_queueless fun _ _ _ => rfl
  have hretire : ∀ tags, Queueless (retireOnPublish tags) := fun _ _ _ => rfl
  have hevents : ∀ intents : List Intent, Queueless fun t : State =>
      intents.foldl (fun t i => deliverRecordEvent (recordEvent t.g i) t) t := foldl_queueless fun _ _ _ => rfl
  have htold := (hevents (s.txns.get c.port).intents).comp ((endCommitter_queueless c.port).comp
    ((hretire ((s.txns.get c.port).intents.map Intent.tag)).comp (hinstall (s.txns.get c.port).intents)))
    q { s with g := s.g + 1#32 }
  simp only at htold
  show _ = withQueue q (publishCommit c s)
  unfold publishCommit
  simp only [withQueue_txns]
  erw [htold]
  rfl

theorem publishHead_queueless : Queueless publishHead := by
  intro q s
  simp only [publishHead, withQueue_engine, publishCommit_queueless _ q s]
  split
  · rfl
  · split <;> rfl

/-! ### The image controller -/

theorem endCheckpoint_queueless (r : ImageResult) : Queueless (endCheckpoint r) := fun _ _ => rfl

theorem endLoad_queueless (r : LoadResult) (current : Option ImageSlot) (sequence : Gen) :
    Queueless (endLoad r current sequence) := fun _ _ => rfl

theorem trySlots_queueless (slots : List (ImageSlot × ImageHeader)) : Queueless (fun s => trySlots s slots) := by
  intro q s
  induction slots with
  | nil => rfl
  | cons x others ih =>
    obtain ⟨i, h⟩ := x
    simp only [trySlots] at ih ⊢
    split
    · split
      · rfl
      · exact ih
    · rfl

theorem pollReady_queueless (left : Option (List Byte)) : Queueless (pollReady left) := by
  intro q s
  simp only [pollReady, withQueue_image, withQueue_flash]
  split
  · split
    · simp only [sendLoadRead]
      split <;> rfl
    · rfl
    · simp only [sendErase]
      split <;> rfl
    · simp only [sendProgram]
      split <;> rfl
    · rfl
    · rfl
  · rfl

theorem pollTimeout_queueless : Queueless pollTimeout := by
  intro q s
  simp only [pollTimeout, failLoadPoll, withQueue_image]
  split
  · split
    · split
      · split <;> rfl
      · rfl
      · rfl
    · rfl
  · rfl

theorem eraseEnded_queueless (c : Checkpoint) : Queueless (eraseEnded c) := by
  intro q s
  have hr : checkpointRecords (withQueue q s) = checkpointRecords s := rfl
  simp only [eraseEnded, hr]
  split
  · split
    · rfl
    · split <;> rfl
  all_goals rfl

theorem unitVerified_queueless (c : Checkpoint) : Queueless (unitVerified c) := by
  intro q s
  have hr : checkpointRecords (withQueue q s) = checkpointRecords s := rfl
  simp only [unitVerified, hr]
  split
  · split <;> rfl
  all_goals rfl

theorem eraseDone_queueless (left : Option (List Byte)) : Queueless (eraseDone left) := by
  intro q s
  simp only [eraseDone, withQueue_image]
  split
  next c _ _ => exact eraseEnded_queueless c q (settledState left s)
  next => rfl

theorem programDone_queueless (left : Option (List Byte)) : Queueless (programDone left) := by
  intro q s
  simp only [programDone, withQueue_image]
  split <;> rfl

theorem expireErase_queueless : Queueless expireErase := by
  intro q s
  simp only [expireErase, withQueue_image]
  split
  · split <;> rfl
  · rfl

theorem expireProgram_queueless : Queueless expireProgram := by
  intro q s
  simp only [expireProgram, withQueue_image]
  split
  · split <;> rfl
  · rfl

theorem readbackDone_queueless (received : Option (List Byte)) : Queueless (readbackDone received) := by
  intro q s
  simp only [readbackDone, readbackEnded, withQueue_image, withQueue_flash, unitVerified_queueless _ q s]
  split
  · split
    · rfl
    · split <;> rfl
  · rfl

theorem headersRead_queueless : Queueless headersRead := by
  intro q s
  simp only [headersRead, withQueue_image, withQueue_flash]
  split
  · split
    · rfl
    · exact trySlots_queueless _ q s
  · rfl

theorem checkEntry_queueless (c : LoadCursor) : Queueless (checkEntry c) := by
  intro q s
  simp only [checkEntry, withQueue_flash]
  split
  · exact trySlots_queueless _ q s
  · split
    · split
      · rfl
      · split
        · rfl
        · exact trySlots_queueless _ q s
    · exact trySlots_queueless _ q s

theorem entryChecked_queueless : Queueless entryChecked := by
  intro q s
  simp only [entryChecked, withQueue_image]
  split
  · exact checkEntry_queueless _ q s
  · exact checkEntry_queueless _ q s
  · rfl

theorem installEntry_queueless (e : LoadEntry) (q : List Instr) (s : State) :
    installEntry e (withQueue q s) = (installEntry e s).map (withQueue q) := by
  have hs : freeSlots (withQueue q s) = freeSlots s := rfl
  have he : freeEntries (withQueue q s) = freeEntries s := rfl
  simp only [installEntry, hs, he, withQueue_directory, withQueue_pool]
  split
  · rfl
  · split <;> rfl

theorem installAt_queueless (c : LoadCursor) : Queueless (installAt c) := by
  intro q s
  simp only [installAt, withQueue_flash, installEntry_queueless]
  split
  · rfl
  next e _ =>
    cases installEntry e s with
    | none => rfl
    | some t =>
      simp only [Option.map_some]
      split <;> rfl

theorem entryInstalled_queueless : Queueless entryInstalled := by
  intro q s
  simp only [entryInstalled, withQueue_image]
  split
  · exact installAt_queueless _ q s
  · exact installAt_queueless _ q s
  · rfl

theorem deviceResetEnd_queueless (adr : BitVec 3) (priv : BitVec 4) : Queueless (deviceResetEnd adr priv) := by
  intro q s
  exact withQueue_ite_state rfl rfl

/-! ### Every command -/

/-- Every command is an operation on the state that neither reads nor changes the queue. -/
theorem exec_queueless (c : Instr) : ∃ f, (∀ s, exec c s = .next (f s)) ∧ Queueless f := by
  have row : ∀ r p, ∃ f, (∀ s, exec (requestRow r p) s = .next (f s)) ∧ Queueless f := fun r p =>
    ⟨_, exec_requestRow r p, endRequest_queueless r p⟩
  cases c with
  | deviceStatus p => exact row .deviceStatus p
  | configure p => exact row .configure p
  | portReset p => exact row .portReset p
  | flagClear p => exact row .flagClear p
  | snapOpen p => exact row .snapOpen p
  | snapClose p => exact row .snapClose p
  | stat p => exact row .stat p
  | read p => exact row .read p
  | scan p => exact row .scan p
  | beginTxn p => exact row .beginTxn p
  | create p => exact row .create p
  | write p => exact row .write p
  | resize p => exact row .resize p
  | add p => exact row .add p
  | delete p => exact row .delete p
  | commit p => exact row .commit p
  | abort p => exact row .abort p
  | txnStatus p => exact row .txnStatus p
  | watch p => exact row .watch p
  | unwatch p => exact row .unwatch p
  | eventPeek p => exact row .eventPeek p
  | eventAck p => exact row .eventAck p
  | checkpoint p => exact row .checkpoint p
  | checkpointCancel p => exact row .checkpointCancel p
  | unknownCodeFrame p => exact ⟨_, fun _ => rfl, unknownFrameEnds_queueless p⟩
  | emptyWriteFrame p => exact ⟨_, fun _ => rfl, emptyFrameEnds_queueless p⟩
  | writeFrameStart p a => exact ⟨_, fun _ => rfl, startFrame_queueless (begins := beginReceiving) (fun _ _ => rfl) a⟩
  | readFrameStart p a => exact ⟨_, fun _ => rfl, startFrame_queueless (beginSending_queueless p) a⟩
  | readFrameEnd p => exact ⟨_, fun _ => rfl, readFrameEnds_queueless p⟩
  | stallTimerExpiry p => exact ⟨_, fun _ => rfl, expireStall_queueless p⟩
  | tick => exact ⟨_, fun _ => rfl, tickAll_queueless⟩
  | holdTimerExpiry p => exact ⟨_, fun _ => rfl, expireHold_queueless p⟩
  | idleTimerExpiry p => exact ⟨_, fun _ => rfl, expireIdle_queueless p⟩
  | take => exact ⟨_, fun _ => rfl, takeHead_queueless⟩
  | pageDigested => exact ⟨_, fun _ => rfl, digestPage_queueless⟩
  | publish => exact ⟨_, fun _ => rfl, publishHead_queueless⟩
  | deviceReset cause => exact ⟨_, fun _ => rfl, fun _ _ => rfl⟩
  | deviceResetEnd adr priv => exact ⟨_, fun _ => rfl, deviceResetEnd_queueless adr priv⟩
  | statusPollReady left => exact ⟨_, fun _ => rfl, pollReady_queueless left⟩
  | statusPollTimeout => exact ⟨_, fun _ => rfl, pollTimeout_queueless⟩
  | eraseDone left => exact ⟨_, fun _ => rfl, eraseDone_queueless left⟩
  | eraseTimerExpiry => exact ⟨_, fun _ => rfl, expireErase_queueless⟩
  | programDone left => exact ⟨_, fun _ => rfl, programDone_queueless left⟩
  | programTimerExpiry => exact ⟨_, fun _ => rfl, expireProgram_queueless⟩
  | readbackDone received => exact ⟨_, fun _ => rfl, readbackDone_queueless received⟩
  | loadHeadersRead => exact ⟨_, fun _ => rfl, headersRead_queueless⟩
  | loadEntryChecked => exact ⟨_, fun _ => rfl, entryChecked_queueless⟩
  | loadEntryInstalled => exact ⟨_, fun _ => rfl, entryInstalled_queueless⟩
  | dataByteReceived p b => exact ⟨_, fun _ => rfl, receiveClocked_queueless p b⟩
  | byteClockedOut p b => exact ⟨_, fun _ => rfl, sendClocked_queueless p b⟩

/-- Settles O2: a command taken on its own queue is the command taken on any queue, so it leaves that queue. -/
theorem everyCommandCompletesWithoutTheQueue : Obligations.EveryCommandCompletesWithoutTheQueue := by
  intro c s
  obtain ⟨f, hf, hq⟩ := exec_queueless c
  refine ⟨f s, hf s, ?_, fun q => ?_⟩
  · have hown : (f s).pending = (withQueue s.pending (f s)).pending := congrArg State.pending (hq s.pending s)
    exact hown
  · exact (hf _).trans (congrArg Host.Outcome.next (hq q s))

end Sys2Proof.Machine
end

section
/-! SUPPORT. Device reset, the time base, and the flash: what a reset leaves, what a tick takes, what an operation that
runs in the flash leaves there. Then the statements about them, and that no command writes the current slot. -/

namespace Sys2Proof.Machine

/-! ### What an operation leaves in the flash -/

theorem cellRead_filter_key {β : Type} (d : β) (q : Nat → Bool) (m : List (Nat × β)) (a : Nat) :
    cellRead d (m.filter (fun c => q c.1)) a = if q a then cellRead d m a else d := by
  induction m with
  | nil => simp [cellRead]
  | cons x rest ih =>
    obtain ⟨k, v⟩ := x
    cases hk : q k with
    | false =>
      rw [List.filter_cons_of_neg (by simp [hk]), ih]
      by_cases ha : k = a
      · subst ha
        simp [hk]
      · simp [cellRead, ha]
    | true =>
      rw [List.filter_cons_of_pos (by simp [hk])]
      by_cases ha : k = a
      · subst ha
        simp [cellRead, hk]
      · simp [cellRead, ha, ih]

theorem cellRead_eraseSector (m : Memory) (addr a : Nat) : cellRead erasedByte (eraseSector m addr) a
    = if addr ≤ a ∧ a < addr + 4096 then erasedByte else cellRead erasedByte m a := by
  have hk := cellRead_filter_key erasedByte
    (fun k => decide (k < addr) || decide (addr + Config.sectorSize ≤ k)) m a
  refine hk.trans ?_
  have hsize : Config.sectorSize = 4096 := rfl
  simp only [Bool.or_eq_true, decide_eq_true_eq, hsize]
  by_cases ha : addr ≤ a ∧ a < addr + 4096
  · rw [if_pos ha, if_neg (by omega)]
  · rw [if_neg ha, if_pos (by omega)]

theorem getD_of_length_le {bs : List Byte} {k : Nat} (h : bs.length ≤ k) (d : Byte) : bs.getD k d = d := by
  rw [List.getD_eq_getElem?_getD, List.getElem?_eq_none h]
  rfl

theorem cellRead_programUnit {m : Memory} (hm : Memory.wf erasedByte m = true) (addr : Nat) (data : List Byte) (a : Nat) :
    cellRead erasedByte (programUnit m addr data) a
      = if addr ≤ a ∧ a < addr + data.length then cellRead erasedByte m a &&& data.getD (a - addr) erasedByte
        else cellRead erasedByte m a := by
  rw [programUnit, cellRead_writeBlock erasedByte hm, List.length_zipWith, readBlock_length, Nat.min_self]
  split
  next h =>
    have hlt : a - addr < data.length := by omega
    have ha : addr + (a - addr) = a := by omega
    have hold : (readBlock erasedByte m addr data.length)[a - addr]? = some (cellRead erasedByte m a) := by
      simp [readBlock, hlt, ha]
    simp only [List.getD_eq_getElem?_getD, List.getElem?_zipWith, hold, List.getElem?_eq_getElem hlt]
    rfl
  next => rfl

/-- Where the region of an operation that runs in the flash begins. -/
def FlashRun.start : FlashRun → Nat
  | .erase addr => addr
  | .program addr _ => addr

/-- How many bytes the region of an operation that runs in the flash has. -/
def FlashRun.size : FlashRun → Nat
  | .erase _ => 4096
  | .program _ _ => 256

theorem FlashRun.reaches_iff (run : FlashRun) (a : Nat) : run.reaches a ↔ run.start ≤ a ∧ a < run.start + run.size := by
  cases run <;> rfl

theorem FlashRun.land_some (run : FlashRun) (m : Memory) (left : List Byte) :
    run.land m (some left) = writeBlock erasedByte m run.start (left.take run.size) := by
  cases run <;> rfl

theorem getD_take {bs : List Byte} {n k : Nat} (h : k < n) (d : Byte) : (bs.take n).getD k d = bs.getD k d := by
  simp only [List.getD_eq_getElem?_getD, List.getElem?_take_of_lt h]

/-- Where the command gives the bytes left, they stand in the operation's region, as far as it reaches. -/
theorem FlashRun.cellRead_land_some {m : Memory} (hm : Memory.wf erasedByte m = true) (run : FlashRun) (left : List Byte)
    (a : Nat) : cellRead erasedByte (run.land m (some left)) a
      = if run.start ≤ a ∧ a < run.start + min left.length run.size then left.getD (a - run.start) erasedByte
        else cellRead erasedByte m a := by
  rw [run.land_some, cellRead_writeBlock erasedByte hm, List.length_take, Nat.min_comm run.size]
  split
  next h => exact getD_take (by omega) _
  next => rfl

/-- An operation that sends whole units changes no byte out of its region. -/
theorem FlashRun.cellRead_land_of_not_reaches {m : Memory} (hm : Memory.wf erasedByte m = true) {run : FlashRun}
    (hunit : ∀ addr data, run = .program addr data → data.length = 256) (left : Option (List Byte)) {a : Nat}
    (ha : ¬ run.reaches a) : cellRead erasedByte (run.land m left) a = cellRead erasedByte m a := by
  rw [run.reaches_iff] at ha
  cases left with
  | some left =>
    rw [run.cellRead_land_some hm, if_neg]
    omega
  | none =>
    cases run with
    | erase addr => exact (cellRead_eraseSector m addr a).trans (if_neg ha)
    | program addr data =>
      refine (cellRead_programUnit hm addr data a).trans (if_neg ?_)
      rw [hunit addr data rfl]
      exact ha

theorem Flash.settle_running (f : Flash) (left : Option (List Byte)) : (f.settle left).running = none := by
  unfold settle
  split
  next h => exact h
  next => rfl

theorem Flash.settle_of_idle {f : Flash} (h : f.running = none) (left : Option (List Byte)) : f.settle left = f := by
  simp only [settle, h]

theorem Flash.settle_of_running {f : Flash} {run : FlashRun} (h : f.running = some run) (left : Option (List Byte)) :
    f.settle left = ⟨run.land f.mem left, none⟩ := by
  simp only [settle, h]

theorem Flash.cutOff_running (f : Flash) (left : Option (List Byte)) : (f.cutOff left).running = none := by
  unfold cutOff
  split
  next h => exact h
  all_goals rfl

theorem Flash.cutOff_mem_of_none (f : Flash) (left : Option (List Byte)) (h : f.running = none ∨ left = none) :
    (f.cutOff left).mem = f.mem := by
  unfold cutOff
  split
  · rfl
  · rfl
  next hr => rcases h with h | h <;> simp_all

theorem Flash.cutOff_of_running {f : Flash} {run : FlashRun} (h : f.running = some run) (left : List Byte) :
    f.cutOff (some left) = ⟨run.land f.mem (some left), none⟩ := by
  simp only [cutOff, h]

/-! ### Device reset -/

theorem Pool.afterReset_free : Pool.afterReset.free = List.range 1024 := by
  simp only [Pool.afterReset, Config.poolPages]

/-- Settles O14: the blocks by the reset state's definition, the flash by the operation that was cut off. -/
theorem deviceResetLeavesResetValues : Obligations.DeviceResetLeavesResetValues := by
  intro cause s
  refine ⟨deviceReset cause s, rfl, rfl, fun p => PortMap.get_same _ p, fun p => PortMap.get_same _ p, rfl, rfl, rfl,
    fun n => rfl, Pool.afterReset_free, fun p => PortMap.get_same _ p, fun p => PortMap.get_same _ p, rfl, rfl,
    fun p => PortMap.get_same _ p, rfl, ?_, ?_, ?_, rfl⟩
  · rintro rfl
    rfl
  · rintro left rfl
    exact ⟨s.flash.cutOff_running left, s.flash.cutOff_mem_of_none left⟩
  · rintro left start size rfl hm hrun a
    have hland : ∀ run : FlashRun, s.flash.running = some run → run.start = start → run.size = size →
        cellRead 0xFF#8 (s.flash.cutOff (some left)).mem a
          = if start ≤ a ∧ a < start + min left.length size then left.getD (a - start) 0xFF#8
            else cellRead 0xFF#8 s.flash.mem a := by
      rintro run hr rfl rfl
      rw [Flash.cutOff_of_running hr]
      exact run.cellRead_land_some hm left a
    rcases hrun with ⟨hr, rfl⟩ | ⟨⟨data, hr⟩, rfl⟩
    · exact hland _ hr rfl rfl
    · exact hland _ hr rfl rfl

/-- While device reset is in force no command but its end and another device reset changes anything. -/
theorem exec_inReset {c : Instr} (hreset : ∀ cause, c ≠ .deviceReset cause) (hend : ∀ adr priv, c ≠ .deviceResetEnd adr priv)
    (flash : Flash) (q : List Instr) :
    exec c { State.reset with flash := flash, pending := q } = .next { State.reset with flash := flash, pending := q } := by
  have hidle : ∀ p, ({ State.reset with flash := flash, pending := q }.ifaces.get p) = Iface.afterReset :=
    fun p => PortMap.get_same _ p
  have hslot : ∀ p, ({ State.reset with flash := flash, pending := q }.snaps.get p) = Snap.afterReset :=
    fun p => PortMap.get_same _ p
  have hctx : ∀ p, ({ State.reset with flash := flash, pending := q }.txns.get p) = Context.afterReset :=
    fun p => PortMap.get_same _ p
  have row : ∀ r p, exec (requestRow r p) { State.reset with flash := flash, pending := q }
      = .next { State.reset with flash := flash, pending := q } := by
    intro r p
    rw [exec_requestRow, endRequest_of_no_frame]
    rintro args ⟨limit, hf⟩
    rw [hidle p] at hf
    cases hf
  cases c with
  | deviceStatus p => exact row .deviceStatus p
  | configure p => exact row .configure p
  | portReset p => exact row .portReset p
  | flagClear p => exact row .flagClear p
  | snapOpen p => exact row .snapOpen p
  | snapClose p => exact row .snapClose p
  | stat p => exact row .stat p
  | read p => exact row .read p
  | scan p => exact row .scan p
  | beginTxn p => exact row .beginTxn p
  | create p => exact row .create p
  | write p => exact row .write p
  | resize p => exact row .resize p
  | add p => exact row .add p
  | delete p => exact row .delete p
  | commit p => exact row .commit p
  | abort p => exact row .abort p
  | txnStatus p => exact row .txnStatus p
  | watch p => exact row .watch p
  | unwatch p => exact row .unwatch p
  | eventPeek p => exact row .eventPeek p
  | eventAck p => exact row .eventAck p
  | checkpoint p => exact row .checkpoint p
  | checkpointCancel p => exact row .checkpointCancel p
  | deviceReset cause => exact absurd rfl (hreset cause)
  | deviceResetEnd adr priv => exact absurd rfl (hend adr priv)
  | unknownCodeFrame p =>
    refine congrArg Host.Outcome.next ?_
    simp only [unknownFrameEnds, hidle p, Iface.afterReset]
  | emptyWriteFrame p =>
    refine congrArg Host.Outcome.next ?_
    simp only [emptyFrameEnds, hidle p, Iface.afterReset]
  | readFrameEnd p =>
    refine congrArg Host.Outcome.next ?_
    simp only [readFrameEnds, hidle p, Iface.afterReset]
  | stallTimerExpiry p =>
    refine congrArg Host.Outcome.next ?_
    simp only [expireStall, hidle p, Iface.afterReset, ite_self]
  | holdTimerExpiry p =>
    refine congrArg Host.Outcome.next ?_
    simp only [expireHold, hslot p, Snap.afterReset]
  | idleTimerExpiry p =>
    refine congrArg Host.Outcome.next ?_
    simp only [expireIdle, hctx p, Context.afterReset]
  | dataByteReceived p b =>
    refine congrArg Host.Outcome.next ?_
    cases b <;> simp only [receiveClocked, receiveByte, hidle p, Iface.afterReset]
  | byteClockedOut p b =>
    refine congrArg Host.Outcome.next ?_
    cases b <;> simp only [sendClocked, sendByte, hidle p, Iface.afterReset]
  | writeFrameStart p a => exact congrArg Host.Outcome.next (startFrame_of_inReset rfl _ a)
  | readFrameStart p a => exact congrArg Host.Outcome.next (startFrame_of_inReset rfl _ a)
  | _ => rfl

/-- Settles O15: no frame is open, no timer runs and no operation is under way in device reset. -/
theorem onlyItsEndLeavesDeviceReset : Obligations.OnlyItsEndLeavesDeviceReset := by
  refine ⟨fun c flash q hreset hend => exec_inReset hreset hend flash q, fun adr priv s => ⟨fun h => ?_, fun h => ?_⟩⟩
  · refine congrArg Host.Outcome.next ?_
    simp only [deviceResetEnd, h, if_true]
    rfl
  · refine congrArg Host.Outcome.next ?_
    simp [deviceResetEnd, h]

/-! ### The time base -/

theorem Timer.load_of_pos {n : Nat} (h : 0 < n) : Timer.load n = some n := by
  simp only [Timer.load, Nat.ne_of_gt h, if_false]

theorem Timer.tick_iterate (k n : Nat) : Timer.tick^[k] (some n) = some (n - k) := by
  induction k generalizing n with
  | zero => rfl
  | succ k ih =>
    cases n with
    | zero => exact (ih 0).trans (by simp)
    | succ n => exact (ih n).trans (by congr 1; omega)

theorem Timer.tick_iterate_none (k : Nat) : Timer.tick^[k] (none : Timer) = none := by
  induction k with
  | zero => rfl
  | succ k ih => exact ih

theorem FlashOp.timer_eq_some_iff (op : FlashOp) (n : Nat) : op.timer = some n ↔
    (∃ next, op = .poll next (some n)) ∨ (∃ addr, op = .erase addr (some n)) ∨ ∃ addr data, op = .program addr data (some n) := by
  cases op <;> simp [FlashOp.timer]

theorem tickAll_of_waits {s : State} (h : expiryWaits s = true) : tickAll s = s := by
  simp only [tickAll, h, Bool.or_true, if_true]

/-- Settles O16: the tick's guard is that no expiry waits, and every timer counts by one. -/
theorem tickCountsEveryTimer : Obligations.TickCountsEveryTimer := by
  refine ⟨fun s h => ?_, fun s => ?_, fun n hn => ⟨?_, fun k hk => ?_⟩, Timer.tick_iterate_none⟩
  · refine congrArg Host.Outcome.next ?_
    simp only [tickAll, h, Bool.true_or, if_true]
  · have hw : expiryWaits s = true ↔
        (∃ p, (s.ifaces.get p).stall = some 0 ∨ (s.snaps.get p).hold = some 0 ∨ (s.txns.get p).idle = some 0)
          ∨ (∃ next, s.image.op = .poll next (some 0)) ∨ (∃ addr, s.image.op = .erase addr (some 0))
          ∨ ∃ addr data, s.image.op = .program addr data (some 0) := by
      rw [expiryWaits_iff, FlashOp.timer_eq_some_iff]
    refine ⟨fun h => congrArg Host.Outcome.next (tickAll_of_waits (hw.mpr h)), fun hr h => ?_⟩
    have hnot : expiryWaits s = false := by simpa using mt hw.mp h
    have ht : tickAll s = { s with
        ifaces := s.ifaces.mapPorts (fun _ => Iface.tick)
        snaps := s.snaps.mapPorts (fun _ => Snap.tick)
        txns := s.txns.mapPorts (fun _ => Context.tick)
        image := { s.image with op := s.image.op.tick } } := by
      simp [tickAll, hr, hnot]
    refine ⟨_, congrArg Host.Outcome.next ht, fun p => ?_, fun p => ?_, fun p => ?_, fun _ timer hop => ?_,
      fun addr timer hop => ?_, fun addr data timer hop => ?_, ?_, rfl⟩
    · simp only [PortMap.get_mapPorts, Iface.tick, Timer.tick_eq_map]
    · simp only [PortMap.get_mapPorts, Snap.tick, Timer.tick_eq_map]
    · simp only [PortMap.get_mapPorts, Context.tick, Timer.tick_eq_map]
    · simp only [hop, FlashOp.tick, Timer.tick_eq_map]
    · simp only [hop, FlashOp.tick, Timer.tick_eq_map]
    · simp only [hop, FlashOp.tick, Timer.tick_eq_map]
    · rintro (hop | hop | ⟨addr, data, hop⟩) <;> simp only [hop, FlashOp.tick]
  · rw [Timer.load_of_pos hn, Timer.tick_iterate, Nat.sub_self]
    rfl
  · rw [Timer.load_of_pos hn, Timer.tick_iterate, ← Bool.not_eq_true, Timer.due_iff, Option.some_inj]
    omega

/-! ### What the operations put on the link -/

/-- Settles O57: what an operation lands by its region, and what the link sends by the operation in progress. -/
theorem flashOperationsLand : Obligations.FlashOperationsLand := by
  refine ⟨fun f hm => ⟨fun addr hr a => ?_, fun addr data hr a => ?_, fun addr left hr hl a => ?_,
    fun addr data left hr hl a => ?_, f.settle_running, Flash.settle_of_idle⟩,
    fun s => ⟨fun h => ?_, fun h hok => ?_, fun next timer h hl => ?_, fun timer h hl => ?_, fun addr timer h => ?_,
      fun addr data timer h => ?_, fun addr data h => ?_, fun h hl => ?_, fun c h hl => ⟨?_, fun hok => ?_⟩, rfl⟩⟩
  · rw [Flash.settle_of_running hr]
    exact cellRead_eraseSector f.mem addr a
  · rw [Flash.settle_of_running hr]
    exact cellRead_programUnit hm addr data a
  · rw [Flash.settle_of_running hr]
    refine ((FlashRun.erase addr).cellRead_land_some hm left a).trans ?_
    simp only [FlashRun.start, FlashRun.size, hl, Nat.min_self]
    rfl
  · rw [Flash.settle_of_running hr]
    refine ((FlashRun.program addr data).cellRead_land_some hm left a).trans ?_
    simp only [FlashRun.start, FlashRun.size, hl, Nat.min_self]
    rfl
  · have hs : linkSends s = [] := by simp only [linkSends, h]
    exact ⟨hs, by simp only [linkReleased, hs, List.isEmpty_nil]⟩
  · simp only [linkReleased, linkSends]
    cases hop : s.image.op with
    | none => exact absurd hop h
    | poll after timer => cases after <;> cases s.image.loader <;> rfl
    | erase addr timer => rfl
    | program addr data timer => rfl
    | readback addr data => rfl
    | loadRead =>
      cases hl : s.image.loader with
      | idle => exact absurd hl (hok.opLoad h (by rw [hop]; rfl)).2
      | header0 =>
        rcases hok.headersOp (.inl hl) with ⟨-, hl'⟩ | ⟨t, hop'⟩
        · rw [hl] at hl'
          cases hl'
        · rw [hop] at hop'
          cases hop'
      | header1 => rfl
      | checking c => rfl
      | installing c => rfl
  · simp only [linkSends, h]
    split
    next hlr _ hl' => exact absurd hl (by simp [hl'])
    all_goals rfl
  · simp only [linkSends, h, hl]
    rfl
  · simp only [linkSends, h]
    rfl
  · simp only [linkSends, h]
    rfl
  · simp only [linkSends, h]
    rfl
  · simp only [linkSends, h, hl]
    rfl
  · rcases hl with hl | hl <;> simp only [linkSends, h, hl] <;> rfl
  · have he := hok.entriesOp c hl
    rw [h] at he
    by_cases hroom : Config.imageSlotSize < c.offset + 8
    · rw [if_pos hroom] at he
      cases he
    · exact Nat.not_lt.mp hroom

end Sys2Proof.Machine
end

section
/-! SUPPORT. The transaction requests that an earlier part left: what WRITE and RESIZE start from, the checks and effects
of WRITE, RESIZE, ADD and DELETE in their order, TXN_STATUS and the idle timer's expiry; then the statements about them. -/

namespace Sys2Proof.Machine

/-! ### Facts that the checks share -/

theorem recordTag_of_ne {tag : Tag} (h0 : tag ≠ 0x0000#16) (h1 : tag ≠ 0xFFFF#16) : recordTag tag = true :=
  (recordTag_iff tag).mpr ⟨h0, h1⟩

theorem permitted_iff (s : State) (p : Port) (a : Attrs) :
    permitted s p a = true ↔ a.writers.getLsbD p.index = true ∨ s.priv.getLsbD p.index = true := by
  simp [permitted, privileged]

theorem not_permitted {s : State} {p : Port} {a : Attrs}
    (h : a.writers.getLsbD p.index = false ∧ s.priv.getLsbD p.index = false) : ¬ permitted s p a = true := by
  obtain ⟨hw, hp⟩ := h
  simp [permitted_iff, hw, hp]

section
variable {p : Port} {tag : Tag} {s : State}

/-- A tag whose entry has a given operation. -/
theorem findIntent_op {intents : List Intent} {i : Intent} {op : IntentOp} (hi : findIntent intents tag = some i)
    (hop : i.op = op) : findIntent intents tag = some ⟨i.tag, op⟩ := by
  rw [hi, ← hop]

/-! ### What WRITE and RESIZE start from (R67, R69, R70) -/

theorem findStart_of_absent (hi : findIntent (s.txns.get p).intents tag = none) (hroom : (s.txns.get p).intents.length < 16)
    (hv : ∀ v, (chainOf s.directory tag).head? = some v → v.isTombstone = true) :
    findStart p tag s = .error (.plain .absent) := by
  have hlen : ¬ Config.maxIntents ≤ (s.txns.get p).intents.length := Nat.not_le.mpr hroom
  rcases lookup_of_no_live_head hv with hl | ⟨v, hl⟩ <;> simp only [findStart, hi, hlen, if_false, hl]

section
variable (hi : findIntent (s.txns.get p).intents tag = none) (hroom : (s.txns.get p).intents.length < 16)
include hi hroom

theorem findStart_of_counter {gen : Gen} {a : Attrs} {x : BitVec 32} {crc : Crc}
    (hv : (chainOf s.directory tag).head? = some ⟨gen, .counter a x crc⟩) :
    findStart p tag s = .error (.plain .wrongKind) := by
  have hlen : ¬ Config.maxIntents ≤ (s.txns.get p).intents.length := Nat.not_le.mpr hroom
  simp only [findStart, hi, hlen, if_false, lookup_of_live_head hv rfl]

theorem findStart_of_blob {gen : Gen} {a : Attrs} {n : Nat} {pages : List PageNo} {crc : Crc}
    (hv : (chainOf s.directory tag).head? = some ⟨gen, .blob a n pages crc⟩) : findStart p tag s
      = if permitted s p a then .ok (.firstTouch gen n pages) else .error (.plain .denied) := by
  have hlen : ¬ Config.maxIntents ≤ (s.txns.get p).intents.length := Nat.not_le.mpr hroom
  simp only [findStart, hi, hlen, if_false, lookup_of_live_head hv rfl]

end

/-- Settles O34: the entry of the tag, and without one the newest version of the tag's chain. -/
theorem bodyRequestsStartFromEntryOrRecord : Obligations.BodyRequestsStartFromEntryOrRecord := by
  intro p tag s
  refine ⟨fun i hi => ⟨fun a hop => ?_, fun a body hop => ?_, fun base body hop => ?_, ?_, ?_⟩,
    fun hi => ⟨fun hroom => ?_, fun hroom => ⟨findStart_of_absent hi hroom, fun gen a x crc hv => ?_,
      fun gen a n pages crc hv => ⟨fun hno => ?_, fun hyes => ?_⟩⟩⟩⟩
  · simp only [findStart, findIntent_op hi hop, hop]
    rfl
  · simp only [findStart, findIntent_op hi hop, hop]
    rfl
  · simp only [findStart, findIntent_op hi hop, hop]
  · rintro (⟨a, d, hop⟩ | ⟨base, d, hop⟩) <;> simp only [findStart, findIntent_op hi hop]
  · rintro ⟨base, hop⟩
    simp only [findStart, findIntent_op hi hop]
  · have hlen : Config.maxIntents ≤ (s.txns.get p).intents.length := hroom
    simp only [findStart, hi, hlen, if_true]
  · exact findStart_of_counter hi hroom hv
  · exact (findStart_of_blob hi hroom hv).trans (if_neg (not_permitted hno))
  · exact (findStart_of_blob hi hroom hv).trans (if_pos ((permitted_iff s p a).mpr hyes))

/-! ### Claims and their entries (R75, R76) -/

theorem claimBody_of_error {start : Start} {change : Pool → StagedBody → Option (Pool × StagedBody)} {d : StagingDetail}
    (h : stagedClaim p s.pool start.body (change (start.pool s.pool) start.body) = .error d) :
    claimBody p tag start change s = .error (.noSpace d) := by
  simp only [claimBody, h]

/-- The intent list once a claim is granted: the tag's entry changed in its place, or a WRITTEN entry at the end. -/
def Start.intentsAfter (tag : Tag) (body : StagedBody) (intents : List Intent) : Start → List Intent
  | .entry op old => changeIntent intents tag ((Start.entry op old).op body)
  | .firstTouch base _ _ => intents ++ [⟨tag, .written base body⟩]

theorem claimBody_of_ok {start : Start} {change : Pool → StagedBody → Option (Pool × StagedBody)} {pool : Pool}
    {body : StagedBody} (h : stagedClaim p s.pool start.body (change (start.pool s.pool) start.body) = .ok (pool, body)) :
    claimBody p tag start change s
      = .ok (withIntents p (start.intentsAfter tag body (s.txns.get p).intents) { s with pool := pool }) := by
  cases start with
  | entry op old =>
    simp only [claimBody, h]
    rfl
  | firstTouch base length pages =>
    simp only [claimBody, h]
    rfl

/-! ### WRITE (R67, R74, R75) -/

variable {offset count : Nat} {data : List Byte}

theorem actWrite_of_range (h : ¬ (recordTag tag = true ∧ 1 ≤ count ∧ count ≤ 64)) :
    actWrite p tag offset count data s = .error (.plain .range) := by
  have hno : ¬ (recordTag tag && decide (1 ≤ count) && decide (count ≤ Config.maxWrite)) = true := by
    simp only [Bool.and_eq_true, decide_eq_true_eq, and_assoc]
    exact h
  rw [actWrite, if_neg hno]

theorem actWrite_of_args (h : recordTag tag = true ∧ 1 ≤ count ∧ count ≤ 64) :
    actWrite p tag offset count data s = match findStart p tag s with
      | .error e => .error e
      | .ok start =>
        if offset ≤ start.length ∧ offset + count ≤ Config.maxBody then
          claimBody p tag start (writeBody offset (data.take count)) s
        else .error (.plain .range) := by
  have hyes : (recordTag tag && decide (1 ≤ count) && decide (count ≤ Config.maxWrite)) = true := by
    simp only [Bool.and_eq_true, decide_eq_true_eq, and_assoc]
    exact h
  exact if_pos hyes

end

theorem takingOf_write (p : Port) (tag : Tag) (offset : BitVec 16) (count : Byte) (data : List Byte) (s : State) :
    takingOf .write p (be16 tag ++ be16 offset ++ [count] ++ data) s
      = staging p (actWrite p tag offset.toNat count.toNat data s) s := by
  have hargs : be16 tag ++ be16 offset ++ [count] ++ data = be16 tag ++ (be16 offset ++ ([count] ++ data)) := by
    simp only [List.append_assoc]
  have hrow : takingOf .write p (be16 tag ++ (be16 offset ++ ([count] ++ data))) s
      = takeWrite p (argTag (be16 tag ++ (be16 offset ++ ([count] ++ data))))
          (arg16 (be16 tag ++ (be16 offset ++ ([count] ++ data))) 2) count.toNat data s := rfl
  rw [hargs, hrow, argTag_be16, arg16_be16_be16, takeWrite]

/-- The bytes of a WRITE frame complete it: its count's data, or none where the count is out of range. -/
theorem declaredLength_write_le {tag : Tag} {offset : BitVec 16} {count : Byte} {data : List Byte}
    (h : data.length = count.toNat ∨ ¬ (1 ≤ count.toNat ∧ count.toNat ≤ 64)) :
    declaredLength (requestCode .write :: (be16 tag ++ be16 offset ++ [count] ++ data))
      ≤ (be16 tag ++ be16 offset ++ [count] ++ data).length + 1 := by
  have hgrowth : writeGrowth (requestCode .write :: (be16 tag ++ be16 offset ++ [count] ++ data))
      = if 1 ≤ count.toNat ∧ count.toNat ≤ 64 then count.toNat else 0 := rfl
  rw [declaredLength_write, hgrowth]
  simp only [List.length_append, be16_length, List.length_cons, List.length_nil]
  split <;> omega

section
variable {r : Request} {p : Port} {args : List Byte} {s t : State}

/-- A staging request in OPEN whose claim the pool refuses. -/
theorem exec_staging_noSpace {d : StagingDetail} (h : readyWith p (requestCode r :: args) s)
    (hl : declaredLength (requestCode r :: args) ≤ args.length + 1) (ho : (s.txns.get p).state = .opened)
    (ht : takingOf r p args (judgedState p s) = staging p (.error (.noSpace d)) (judgedState p s)) :
    exec (requestRow r p) s = .next (stagedReply p .noSpace (requestCode r) d s) := by
  refine exec_requestRow_taken (a := Answer.bare .noSpace) (t := noteStaging p d s) h hl ?_
  obtain ⟨-, -, hopen⟩ := staging_cases p (.error (.noSpace d)) (judgedState p s)
  obtain ⟨-, -, hspace⟩ := hopen ho
  rw [ht, hspace d rfl, noteStaging_judgedState]

/-- What WRITE and RESIZE answer once their claim has been judged: NOSPACE with its detail, or the claim's pool and body
in the entry that the start names. -/
theorem exec_claim {tag : Tag} {start : Start} {change : Pool → StagedBody → Option (Pool × StagedBody)}
    (h : readyWith p (requestCode r :: args) s) (hl : declaredLength (requestCode r :: args) ≤ args.length + 1)
    (ho : (s.txns.get p).state = .opened)
    (ht : takingOf r p args (judgedState p s) = staging p (claimBody p tag start change (judgedState p s)) (judgedState p s)) :
    (∀ detail, stagedClaim p s.pool start.body (change (start.pool s.pool) start.body) = .error detail →
      exec (requestRow r p) s = .next (stagedReply p .noSpace (requestCode r) detail s))
    ∧ ∀ pool body, stagedClaim p s.pool start.body (change (start.pool s.pool) start.body) = .ok (pool, body) →
      let becomes := fun (intents : List Intent) => exec (requestRow r p) s
        = .next (stagedReply p .ok (requestCode r) .none
          ({ s with pool := pool }.setTxn p { s.txns.get p with intents := intents }))
      (∀ a b old, start = .entry (.created a (.blob b)) old →
        becomes (changeIntent (s.txns.get p).intents tag (.created a (.blob (some body)))))
      ∧ (∀ base b old, start = .entry (.written base b) old →
        becomes (changeIntent (s.txns.get p).intents tag (.written base body)))
      ∧ (∀ base n pages, start = .firstTouch base n pages →
        becomes ((s.txns.get p).intents ++ [⟨tag, .written base body⟩])) := by
  refine ⟨fun detail hc => exec_staging_noSpace h hl ho ?_, fun pool body hc => ⟨?_, ?_, ?_⟩⟩
  · rw [ht, claimBody_of_error (s := judgedState p s) hc]
  · rintro a b old rfl
    refine exec_staging_accepted h hl ho rfl (ht.trans ?_)
    rw [claimBody_of_ok (s := judgedState p s) hc]
    rfl
  · rintro base b old rfl
    refine exec_staging_accepted h hl ho rfl (ht.trans ?_)
    rw [claimBody_of_ok (s := judgedState p s) hc]
    rfl
  · rintro base n pages rfl
    refine exec_staging_accepted h hl ho rfl (ht.trans ?_)
    rw [claimBody_of_ok (s := judgedState p s) hc]
    rfl

end

/-- Settles O35: WRITE's checks in the order of R67, and then its claim. -/
theorem writeStagesItsBytes : Obligations.WriteStagesItsBytes := by
  intro p s tag offset count data h ho
  have hrefused : data.length = count.toNat ∨ ¬ (1 ≤ count.toNat ∧ count.toNat ≤ 64) → ∀ x,
      actWrite p tag offset.toNat count.toNat data (judgedState p s) = .error (.plain x) →
      exec (.write p) s = .next (stagedReply p x 0x22#8 .none s) := fun hl x hx =>
    exec_staging_refused (r := .write) h (declaredLength_write_le hl) ho ((takingOf_write ..).trans (by rw [hx]))
  refine ⟨fun _ hcount => hrefused (.inr hcount) _ (actWrite_of_range fun hargs => hcount hargs.2), fun hl hcount =>
    ⟨fun htag => hrefused (.inl hl) _ (actWrite_of_range fun hargs => htag ((recordTag_iff tag).mp hargs.1)), fun htag => ?_⟩⟩
  have hargs : recordTag tag = true ∧ 1 ≤ count.toNat ∧ count.toNat ≤ 64 := ⟨(recordTag_iff tag).mpr htag, hcount⟩
  have hact := actWrite_of_args (p := p) (offset := offset.toNat) (data := data) (s := judgedState p s) hargs
  have hdata : data.take count.toNat = data := List.take_of_length_le hl.le
  have hfind : findStart p tag (judgedState p s) = findStart p tag s := rfl
  rw [hfind] at hact
  refine ⟨fun r hr => hrefused (.inl hl) r (by rw [hact, hr]), fun start hstart => ?_⟩
  rw [hstart] at hact
  refine ⟨fun hrange => hrefused (.inl hl) _ (hact.trans (if_neg ?_)), fun hrange => ?_⟩
  · show ¬ (offset.toNat ≤ start.length ∧ offset.toNat + count.toNat ≤ 2048)
    omega
  · have hclaim : actWrite p tag offset.toNat count.toNat data (judgedState p s)
        = claimBody p tag start (writeBody offset.toNat data) (judgedState p s) := by
      rw [← hdata, hdata] at hact
      exact (hact.trans (if_pos hrange)).trans (by rw [hdata])
    exact exec_claim (r := .write) h (declaredLength_write_le (.inl hl)) ho
      ((takingOf_write ..).trans (by rw [hclaim]))

/-! ### RESIZE (R67, R76) -/

theorem takingOf_resize (p : Port) (tag : Tag) (length : BitVec 16) (s : State) :
    takingOf .resize p (be16 tag ++ be16 length) s = staging p (actResize p tag length.toNat s) s := by
  have hrow : takingOf .resize p (be16 tag ++ be16 length) s
      = takeResize p (argTag (be16 tag ++ be16 length)) (arg16 (be16 tag ++ be16 length) 2) s := rfl
  have hlen := arg16_be16_be16 tag length []
  rw [List.append_nil] at hlen
  rw [hrow, argTag_be16, hlen, takeResize]

section
variable {p : Port} {tag : Tag} {length : Nat} {s : State}

theorem actResize_of_range (h : ¬ (recordTag tag = true ∧ length ≤ 2048)) :
    actResize p tag length s = .error (.plain .range) := by
  have hno : ¬ (recordTag tag && decide (length ≤ Config.maxBody)) = true := by
    simp only [Bool.and_eq_true, decide_eq_true_eq]
    exact h
  rw [actResize, if_neg hno]

theorem actResize_of_args (h : recordTag tag = true ∧ length ≤ 2048) :
    actResize p tag length s = match findStart p tag s with
      | .error e => .error e
      | .ok start => claimBody p tag start (resizeBody length) s := by
  have hyes : (recordTag tag && decide (length ≤ Config.maxBody)) = true := by
    simp only [Bool.and_eq_true, decide_eq_true_eq]
    exact h
  exact if_pos hyes

end

/-- Settles O36: RESIZE's checks in the order of R67, and then its claim. -/
theorem resizeStagesItsLength : Obligations.ResizeStagesItsLength := by
  intro p s tag length h ho
  have hrefused : ∀ x, actResize p tag length.toNat (judgedState p s) = .error (.plain x) →
      exec (.resize p) s = .next (stagedReply p x 0x23#8 .none s) := fun x hx =>
    exec_staging_refused (r := .resize) h le_rfl ho ((takingOf_resize ..).trans (by rw [hx]))
  have hargs : (recordTag tag = true ∧ length.toNat ≤ 2048)
      ↔ tag ≠ 0x0000#16 ∧ tag ≠ 0xFFFF#16 ∧ length.toNat ≤ 2048 := by
    rw [recordTag_iff, and_assoc]
  refine ⟨fun hbad => hrefused _ (actResize_of_range (mt hargs.mp hbad)), fun hok => ?_⟩
  have hact := actResize_of_args (p := p) (s := judgedState p s) (hargs.mpr hok)
  have hfind : findStart p tag (judgedState p s) = findStart p tag s := rfl
  rw [hfind] at hact
  refine ⟨fun r hr => hrefused r (by rw [hact, hr]), fun start hstart => ?_⟩
  rw [hstart] at hact
  exact exec_claim (r := .resize) h le_rfl ho ((takingOf_resize ..).trans (by rw [hact]))

/-! ### ADD (R67, R77) -/

theorem takingOf_add (p : Port) (tag : Tag) (delta : BitVec 32) (s : State) :
    takingOf .add p (be16 tag ++ be32 delta) s = staging p (actAdd p tag delta.toInt s) s := by
  have hrow : takingOf .add p (be16 tag ++ be32 delta) s
      = takeAdd p (argTag (be16 tag ++ be32 delta)) (argDelta (be16 tag ++ be32 delta)) s := rfl
  rw [hrow, argTag_be16, argDelta_be32, takeAdd]

theorem takingOf_delete (p : Port) (tag : Tag) (s : State) :
    takingOf .delete p (be16 tag) s = staging p (actDelete p tag s) s := by
  have hrow : takingOf .delete p (be16 tag) s = takeDelete p (argTag (be16 tag)) s := rfl
  rw [hrow, argTag_be16_only, takeDelete]

section
variable {p : Port} {tag : Tag} {delta : Int} {s : State}

theorem actAdd_of_range (h : tag = 0x0000#16 ∨ tag = 0xFFFF#16) : actAdd p tag delta s = .error (.plain .range) := by
  have hno : ¬ recordTag tag = true := by
    rw [recordTag_iff]
    rintro ⟨h0, h1⟩
    exact h.elim h0 h1
  rw [actAdd, if_neg hno]

theorem actDelete_of_range (h : tag = 0x0000#16 ∨ tag = 0xFFFF#16) : actDelete p tag s = .error (.plain .range) := by
  have hno : ¬ recordTag tag = true := by
    rw [recordTag_iff]
    rintro ⟨h0, h1⟩
    exact h.elim h0 h1
  rw [actDelete, if_neg hno]

section
variable (htag : recordTag tag = true) {i : Intent} (hi : findIntent (s.txns.get p).intents tag = some i)
include htag hi

theorem actAdd_of_created_counter {a : Attrs} {d : Int} (hop : i.op = .created a (.counter d)) :
    actAdd p tag delta s = .ok (withIntents p
      (changeIntent (s.txns.get p).intents tag (.created a (.counter (holdDelta (d + delta))))) s) := by
  simp only [actAdd, htag, if_true, findIntent_op hi hop]

theorem actAdd_of_added {base : Gen} {d : Int} (hop : i.op = .added base d) :
    actAdd p tag delta s = .ok (withIntents p
      (changeIntent (s.txns.get p).intents tag (.added base (holdDelta (d + delta)))) s) := by
  simp only [actAdd, htag, if_true, findIntent_op hi hop]

theorem actAdd_of_body (hop : (∃ a b, i.op = .created a (.blob b)) ∨ ∃ base b, i.op = .written base b) :
    actAdd p tag delta s = .error (.plain .wrongKind) := by
  rcases hop with ⟨a, b, hop⟩ | ⟨base, b, hop⟩ <;> simp only [actAdd, htag, if_true, findIntent_op hi hop]

theorem actAdd_of_deleted {base : Gen} (hop : i.op = .deleted base) :
    actAdd p tag delta s = .error (.plain .deleted) := by
  simp only [actAdd, htag, if_true, findIntent_op hi hop]

theorem actDelete_of_written {base : Gen} {body : StagedBody} (hop : i.op = .written base body) :
    actDelete p tag s = .ok (withIntents p (changeIntent (s.txns.get p).intents tag (.deleted base))
      { s with pool := s.pool.releaseBody p body }) := by
  simp only [actDelete, htag, if_true, findIntent_op hi hop, releaseOp, IntentOp.body?]

theorem actDelete_of_added {base : Gen} {d : Int} (hop : i.op = .added base d) :
    actDelete p tag s = .ok (withIntents p (changeIntent (s.txns.get p).intents tag (.deleted base)) s) := by
  simp only [actDelete, htag, if_true, findIntent_op hi hop]

theorem actDelete_of_created {a : Attrs} {staged : CreatedAs} (hop : i.op = .created a staged) :
    actDelete p tag s = .ok (withIntents p (removeIntent (s.txns.get p).intents tag)
      { s with pool := releaseOp p (.created a staged) s.pool }) := by
  simp only [actDelete, htag, if_true, findIntent_op hi hop]

theorem actDelete_of_deleted {base : Gen} (hop : i.op = .deleted base) :
    actDelete p tag s = .error (.plain .deleted) := by
  simp only [actDelete, htag, if_true, findIntent_op hi hop]

end

section
variable (htag : recordTag tag = true) (hi : findIntent (s.txns.get p).intents tag = none)
include htag hi

theorem actAdd_of_limit (hroom : 16 ≤ (s.txns.get p).intents.length) :
    actAdd p tag delta s = .error (.plain .limit) := by
  have hlen : Config.maxIntents ≤ (s.txns.get p).intents.length := hroom
  simp only [actAdd, htag, if_true, hi, hlen]

theorem actDelete_of_limit (hroom : 16 ≤ (s.txns.get p).intents.length) :
    actDelete p tag s = .error (.plain .limit) := by
  have hlen : Config.maxIntents ≤ (s.txns.get p).intents.length := hroom
  simp only [actDelete, htag, if_true, hi, hlen]

variable (hroom : (s.txns.get p).intents.length < 16)
include hroom

theorem actAdd_of_absent (hv : ∀ v, (chainOf s.directory tag).head? = some v → v.isTombstone = true) :
    actAdd p tag delta s = .error (.plain .absent) := by
  have hlen : ¬ Config.maxIntents ≤ (s.txns.get p).intents.length := Nat.not_le.mpr hroom
  rcases lookup_of_no_live_head hv with hl | ⟨v, hl⟩ <;> simp only [actAdd, htag, if_true, hi, hlen, if_false, hl]

theorem actDelete_of_absent (hv : ∀ v, (chainOf s.directory tag).head? = some v → v.isTombstone = true) :
    actDelete p tag s = .error (.plain .absent) := by
  have hlen : ¬ Config.maxIntents ≤ (s.txns.get p).intents.length := Nat.not_le.mpr hroom
  rcases lookup_of_no_live_head hv with hl | ⟨v, hl⟩ <;> simp only [actDelete, htag, if_true, hi, hlen, if_false, hl]

theorem actAdd_of_blob {gen : Gen} {a : Attrs} {n : Nat} {pages : List PageNo} {crc : Crc}
    (hv : (chainOf s.directory tag).head? = some ⟨gen, .blob a n pages crc⟩) :
    actAdd p tag delta s = .error (.plain .wrongKind) := by
  have hlen : ¬ Config.maxIntents ≤ (s.txns.get p).intents.length := Nat.not_le.mpr hroom
  simp only [actAdd, htag, if_true, hi, hlen, if_false, lookup_of_live_head hv rfl]

theorem actAdd_of_counter {gen : Gen} {a : Attrs} {x : BitVec 32} {crc : Crc}
    (hv : (chainOf s.directory tag).head? = some ⟨gen, .counter a x crc⟩) :
    actAdd p tag delta s = if permitted s p a
      then .ok (withIntents p ((s.txns.get p).intents ++ [⟨tag, .added gen delta⟩]) s) else .error (.plain .denied) := by
  have hlen : ¬ Config.maxIntents ≤ (s.txns.get p).intents.length := Nat.not_le.mpr hroom
  simp only [actAdd, htag, if_true, hi, hlen, if_false, lookup_of_live_head hv rfl]

theorem actDelete_of_live {v : Version} {a : Attrs} (hv : (chainOf s.directory tag).head? = some v)
    (ha : v.attrs? = some a) : actDelete p tag s = if permitted s p a
      then .ok (withIntents p ((s.txns.get p).intents ++ [⟨tag, .deleted v.gen⟩]) s) else .error (.plain .denied) := by
  have hlen : ¬ Config.maxIntents ≤ (s.txns.get p).intents.length := Nat.not_le.mpr hroom
  have hlive : v.isTombstone = false := by
    simp only [Version.attrs?] at ha
    simp only [Version.isTombstone]
    split at ha <;> simp_all
  simp only [actDelete, htag, if_true, hi, hlen, if_false, lookup_of_live_head hv hlive, ha]

end
end

/-- Settles O39: ADD's checks in the order of R67. -/
theorem addAccumulatesItsDelta : Obligations.AddAccumulatesItsDelta := by
  intro p s tag delta h ho
  have hrefused : ∀ x, actAdd p tag delta.toInt (judgedState p s) = .error (.plain x) →
      exec (.add p) s = .next (stagedReply p x 0x24#8 .none s) := fun x hx =>
    exec_staging_refused (r := .add) h le_rfl ho ((takingOf_add ..).trans (by rw [hx]))
  have hbecomes : ∀ intents, actAdd p tag delta.toInt (judgedState p s) = .ok (withIntents p intents (judgedState p s)) →
      exec (.add p) s
        = .next (stagedReply p .ok 0x24#8 .none (s.setTxn p { s.txns.get p with intents := intents })) := by
    intro intents hact
    refine exec_staging_accepted (r := .add) h le_rfl ho rfl ((takingOf_add ..).trans ?_)
    rw [hact]
    rfl
  refine ⟨fun hbad => hrefused _ (actAdd_of_range hbad), fun h0 h1 => ?_⟩
  have htag := recordTag_of_ne h0 h1
  refine ⟨fun i hi => ⟨fun a d hop => hbecomes _ (actAdd_of_created_counter (s := judgedState p s) htag hi hop),
      fun base d hop => hbecomes _ (actAdd_of_added (s := judgedState p s) htag hi hop), fun hop => hrefused _ (actAdd_of_body htag hi hop), ?_⟩,
    fun hi => ⟨fun hroom => hrefused _ (actAdd_of_limit htag hi hroom),
      fun hroom => ⟨fun hv => hrefused _ (actAdd_of_absent htag hi hroom hv),
        fun gen a n pages crc hv => hrefused _ (actAdd_of_blob htag hi hroom hv),
        fun gen a x crc hv => ⟨fun hno => ?_, fun hyes => ?_⟩⟩⟩⟩
  · rintro ⟨base, hop⟩
    exact hrefused _ (actAdd_of_deleted htag hi hop)
  · exact hrefused _ ((actAdd_of_counter (s := judgedState p s) htag hi hroom hv).trans (if_neg (not_permitted hno)))
  · exact hbecomes _ ((actAdd_of_counter (s := judgedState p s) htag hi hroom hv).trans
      (if_pos ((permitted_iff _ p a).mpr hyes)))

/-- Settles O40: DELETE's checks in the order of R67. -/
theorem deleteStagesOrDropsAnIntent : Obligations.DeleteStagesOrDropsAnIntent := by
  intro p s tag h ho
  have hrefused : ∀ x, actDelete p tag (judgedState p s) = .error (.plain x) →
      exec (.delete p) s = .next (stagedReply p x 0x25#8 .none s) := fun x hx =>
    exec_staging_refused (r := .delete) h le_rfl ho ((takingOf_delete ..).trans (by rw [hx]))
  have hbecomes : ∀ pool intents, actDelete p tag (judgedState p s)
        = .ok (withIntents p intents { judgedState p s with pool := pool }) →
      exec (.delete p) s = .next (stagedReply p .ok 0x25#8 .none
        ({ s with pool := pool }.setTxn p { s.txns.get p with intents := intents })) := by
    intro pool intents hact
    refine exec_staging_accepted (r := .delete) h le_rfl ho rfl ((takingOf_delete ..).trans ?_)
    rw [hact]
    rfl
  refine ⟨fun hbad => hrefused _ (actDelete_of_range hbad), fun h0 h1 => ?_⟩
  have htag := recordTag_of_ne h0 h1
  refine ⟨fun i hi => ⟨fun base body hop => hbecomes _ _ (actDelete_of_written (s := judgedState p s) htag hi hop),
      fun base d hop => hbecomes _ _ (actDelete_of_added (s := judgedState p s) htag hi hop),
      fun a body hop => hbecomes _ _ (actDelete_of_created (s := judgedState p s) htag hi hop), ?_, ?_⟩,
    fun hi => ⟨fun hroom => hrefused _ (actDelete_of_limit htag hi hroom),
      fun hroom => ⟨fun hv => hrefused _ (actDelete_of_absent htag hi hroom hv),
        fun v a hv ha => ⟨fun hno => ?_, fun hyes => ?_⟩⟩⟩⟩
  · rintro (⟨a, hop⟩ | ⟨a, d, hop⟩)
    · exact hbecomes _ _ (actDelete_of_created (s := judgedState p s) htag hi hop)
    · exact hbecomes _ _ (actDelete_of_created (s := judgedState p s) htag hi hop)
  · rintro ⟨base, hop⟩
    exact hrefused _ (actDelete_of_deleted htag hi hop)
  · exact hrefused _ ((actDelete_of_live (s := judgedState p s) htag hi hroom hv ha).trans (if_neg (not_permitted hno)))
  · exact hbecomes _ _ ((actDelete_of_live (s := judgedState p s) htag hi hroom hv ha).trans
      (if_pos ((permitted_iff _ p a).mpr hyes)))

/-! ### TXN_STATUS and the idle timer (R86, R87, R90) -/

theorem takeTxnStatus_of_opened {p : Port} {s : State} (h : (s.txns.get p).state = .opened) :
    takeTxnStatus p s = (s.setTxn p { s.txns.get p with idle := loadIdle p s }, ⟨.ok, txnStatusPayload p s⟩) := by
  simp only [takeTxnStatus, h]

theorem takeTxnStatus_of_not_opened {p : Port} {s : State} (h : (s.txns.get p).state ≠ .opened) :
    takeTxnStatus p s = (s, ⟨.ok, txnStatusPayload p s⟩) := by
  cases hs : (s.txns.get p).state with
  | opened => exact absurd hs h
  | none | queued | applying | detached => simp only [takeTxnStatus, hs]

/-- Settles O43: the payload by its definition, the idle timer in OPEN alone. -/
theorem txnStatusReportsTheContext : Obligations.TxnStatusReportsTheContext := by
  refine ⟨fun p s h => ⟨fun ho => ?_, fun ho => ?_⟩, by decide, by decide, fun g tag => rfl⟩
  · have hpayload : txnStatusPayload p s = [(s.txns.get p).state.code, (s.txns.get p).outcome.name.code,
        (s.txns.get p).refusal.code, BitVec.ofNat 8 (s.txns.get p).intents.length]
          ++ be16 (BitVec.ofNat 16 (s.pool.stagedOwned.get p)) ++ be16 (s.txns.get p).outcome.conflictTag
          ++ be32 (s.txns.get p).outcome.gen := by
      simp only [txnStatusPayload, ho]
      rfl
    refine (exec_requestRow_taken (r := .txnStatus) (t := s.setTxn p { s.txns.get p with idle := loadIdle p s })
      (a := ⟨.ok, txnStatusPayload p s⟩) h le_rfl ?_).trans ?_
    · show takeTxnStatus p (judgedState p s) = _
      rw [takeTxnStatus_of_opened (s := judgedState p s) ho, loadIdle_judgedState]
      rfl
    · rw [hpayload]
      rfl
  · have hpayload : txnStatusPayload p s = [(s.txns.get p).state.code, (s.txns.get p).outcome.name.code,
        (s.txns.get p).outcome.detailCode, BitVec.ofNat 8 (s.txns.get p).intents.length]
          ++ be16 (BitVec.ofNat 16 (s.pool.stagedOwned.get p)) ++ be16 (s.txns.get p).outcome.conflictTag
          ++ be32 (s.txns.get p).outcome.gen := by
      cases hs : (s.txns.get p).state with
      | opened => exact absurd hs ho
      | none | queued | applying | detached =>
        simp only [txnStatusPayload, hs]
        rfl
    refine (exec_requestRow_taken (r := .txnStatus) (t := s) (a := ⟨.ok, txnStatusPayload p s⟩) h le_rfl ?_).trans ?_
    · show takeTxnStatus p (judgedState p s) = _
      rw [takeTxnStatus_of_not_opened (s := judgedState p s) ho]
      rfl
    · rw [hpayload]
      rfl

/-- Settles O44: the expiry is a discard and then a delivery, and only a due timer expires. -/
theorem idleExpiryEndsTheTransaction : Obligations.IdleExpiryEndsTheTransaction := by
  refine fun p s => ⟨fun ho hd => congrArg Host.Outcome.next ?_, fun hd => congrArg Host.Outcome.next ?_⟩
  · simp only [expireIdle, ho, (Timer.due_iff _).mpr hd, if_true, discardTxn_eq]
  · have hnot : (s.txns.get p).idle.due = false := by simpa using mt (Timer.due_iff _).mp hd
    simp only [expireIdle, hnot]
    cases (s.txns.get p).state <;> rfl

end Sys2Proof.Machine
end

section
/-! SUPPORT. The commit engine: the checks of TAKE one intent at a time, the CRC page by page, and the contents that a
publish installs; then the statements about them. -/

namespace Sys2Proof.Machine

/-! ### Lookup by the chain (R3) -/

section
variable {dir : List DirSlot} {tag : Tag} {v : Version}

theorem lookup_of_nil (h : chainOf dir tag = []) : lookup dir tag = .absent := by
  simp only [lookup, h]

theorem lookup_of_head (h : (chainOf dir tag).head? = some v) :
    lookup dir tag = if v.isTombstone then .deletedHead v else .liveHead v := by
  obtain ⟨older, hc⟩ := List.head?_eq_some_iff.mp h
  simp only [lookup, hc]

theorem lookup_eq_absent_iff : lookup dir tag = .absent ↔ chainOf dir tag = [] := by
  refine ⟨fun h => ?_, lookup_of_nil⟩
  cases hc : chainOf dir tag with
  | nil => rfl
  | cons v older =>
    rw [lookup_of_head (v := v) (by rw [hc]; rfl)] at h
    split at h <;> cases h

theorem head?_eq_none_of_lookup (h : lookup dir tag = .absent) : (chainOf dir tag).head? = none := by
  rw [lookup_eq_absent_iff.mp h]
  rfl

theorem head?_of_lookup (h : lookup dir tag = .deletedHead v ∨ lookup dir tag = .liveHead v) :
    (chainOf dir tag).head? = some v := by
  cases hc : chainOf dir tag with
  | nil =>
    rw [lookup_of_nil hc] at h
    rcases h with h | h <;> cases h
  | cons w older =>
    rw [lookup_of_head (v := w) (by rw [hc]; rfl)] at h
    split at h <;> rcases h with h | h <;> cases h <;> rfl

theorem isTombstone_of_lookup_deleted (h : lookup dir tag = .deletedHead v) : v.isTombstone = true := by
  have hh := lookup_of_head (head?_of_lookup (.inl h))
  rw [h] at hh
  split at hh
  next ht => exact ht
  next => cases hh

theorem isTombstone_of_lookup_live (h : lookup dir tag = .liveHead v) : v.isTombstone = false := by
  have hh := lookup_of_head (head?_of_lookup (.inr h))
  rw [h] at hh
  split at hh
  next => cases hh
  next ht => simpa using ht

theorem kind?_of_isTombstone (h : v.isTombstone = true) : v.kind? = none := by
  unfold Version.isTombstone at h
  unfold Version.kind?
  split at h
  next hc => simp only [hc]
  all_goals cases h

end

/-! ### The checks of TAKE (R98 to R102) -/

section
variable {dir : List DirSlot} {i : Intent}

/-- The base test of WRITTEN and DELETED: the newest version is the base (R100). -/
theorem baseConflict_cases (dir : List DirSlot) (tag : Tag) (base : Gen) :
    ((∃ v, (chainOf dir tag).head? = some v ∧ v.gen = base)
      ∧ (match lookup dir tag with
        | .absent => some ConflictDetail.changed
        | .deletedHead v | .liveHead v => if v.gen = base then none else some .changed) = none)
    ∨ (¬ (∃ v, (chainOf dir tag).head? = some v ∧ v.gen = base)
      ∧ (match lookup dir tag with
        | .absent => some ConflictDetail.changed
        | .deletedHead v | .liveHead v => if v.gen = base then none else some .changed) = some .changed) := by
  cases hl : lookup dir tag with
  | absent => exact .inr ⟨by simp [head?_eq_none_of_lookup hl], rfl⟩
  | deletedHead v =>
    by_cases hb : v.gen = base
    · exact .inl ⟨⟨v, head?_of_lookup (.inl hl), hb⟩, if_pos hb⟩
    · exact .inr ⟨by simp [head?_of_lookup (.inl hl), hb], if_neg hb⟩
  | liveHead v =>
    by_cases hb : v.gen = base
    · exact .inl ⟨⟨v, head?_of_lookup (.inr hl), hb⟩, if_pos hb⟩
    · exact .inr ⟨by simp [head?_of_lookup (.inr hl), hb], if_neg hb⟩

/-- The check of one intent finds no conflict exactly when the intent passes, and otherwise the conflict's detail. -/
theorem intentConflict_cases (dir : List DirSlot) (i : Intent) :
    (passesTake dir i ∧ intentConflict dir i = none)
      ∨ ¬ passesTake dir i ∧ intentConflict dir i = some (conflictDetail dir i) := by
  obtain ⟨tag, op⟩ := i
  cases op with
  | created a as =>
    simp only [passesTake, intentConflict, conflictDetail]
    cases hl : lookup dir tag with
    | absent => exact .inl ⟨by simp [head?_eq_none_of_lookup hl], rfl⟩
    | deletedHead v =>
      exact .inl ⟨by simp [head?_of_lookup (.inl hl), isTombstone_of_lookup_deleted hl], rfl⟩
    | liveHead v => exact .inr ⟨by simp [head?_of_lookup (.inr hl), isTombstone_of_lookup_live hl], rfl⟩
  | written base body => exact baseConflict_cases dir tag base
  | deleted base => exact baseConflict_cases dir tag base
  | added base delta =>
    simp only [passesTake, intentConflict, conflictDetail]
    cases hl : lookup dir tag with
    | absent => exact .inr ⟨by simp [head?_eq_none_of_lookup hl], by simp only [head?_eq_none_of_lookup hl]⟩
    | deletedHead v =>
      have ht := isTombstone_of_lookup_deleted hl
      have hh := head?_of_lookup (.inl hl)
      exact .inr ⟨by simp [hh, kind?_of_isTombstone ht], by simp only [hh, ht, if_true]⟩
    | liveHead v =>
      have ht := isTombstone_of_lookup_live hl
      have hh := head?_of_lookup (.inr hl)
      by_cases hk : v.kind? = some .counter
      · exact .inl ⟨⟨v, hh, hk⟩, if_pos hk⟩
      · refine .inr ⟨by simp [hh, hk], (if_neg hk).trans ?_⟩
        simp [hh, ht]

theorem intentConflict_eq_none_iff : intentConflict dir i = none ↔ passesTake dir i := by
  rcases intentConflict_cases dir i with ⟨hp, hc⟩ | ⟨hp, hc⟩ <;> simp [hp, hc]

theorem firstConflict_of_passes {before : List Intent} (h : ∀ x ∈ before, passesTake dir x) (behind : List Intent) :
    firstConflict dir (before ++ behind) = firstConflict dir behind := by
  induction before with
  | nil => rfl
  | cons x rest ih =>
    have hx := intentConflict_eq_none_iff.mpr (h x List.mem_cons_self)
    rw [List.cons_append, firstConflict, hx]
    exact ih fun y hy => h y (List.mem_cons_of_mem x hy)

theorem firstConflict_of_fails {before behind : List Intent} (h : ∀ x ∈ before, passesTake dir x)
    (hi : ¬ passesTake dir i) :
    firstConflict dir (before ++ i :: behind) = some (.conflict i.tag (conflictDetail dir i)) := by
  rw [firstConflict_of_passes h, firstConflict]
  rcases intentConflict_cases dir i with ⟨hp, -⟩ | ⟨-, hc⟩
  · exact absurd hp hi
  · simp only [hc]

theorem firstConflict_eq_none_iff {intents : List Intent} :
    firstConflict dir intents = none ↔ ∀ i ∈ intents, passesTake dir i := by
  induction intents with
  | nil => simp [firstConflict]
  | cons i rest ih =>
    rw [firstConflict]
    rcases intentConflict_cases dir i with ⟨hp, hc⟩ | ⟨hp, hc⟩
    · simp [hc, hp, ih]
    · simp [hc, hp]

end

/-- An intent needs a directory slot: it creates a record whose tag has none (R102). -/
def needsSlot (dir : List DirSlot) (i : Intent) : Bool :=
  match i.op with
  | .created _ _ => (chainOf dir i.tag).isEmpty
  | .written .. | .added .. | .deleted .. => false

theorem slotsNeeded_eq (dir : List DirSlot) (intents : List Intent) :
    slotsNeeded dir intents = intents.countP (needsSlot dir) := by
  refine List.countP_congr fun i _ => ?_
  obtain ⟨tag, op⟩ := i
  cases op with
  | created a as => simp [needsSlot, lookup_eq_absent_iff]
  | written | added | deleted => rfl

/-- What an intent gives the engine to digest: its body when it is a BLOB's that holds a page (R105). -/
def intentDigests (i : Intent) : List Digest :=
  match i.op with
  | .created _ (.blob (some b)) | .written _ b =>
    if b.pages = [] then [] else [Digest.mk i.tag b.pageNos b.length 0xFFFF#16]
  | .created _ (.blob none) | .created _ (.counter _) | .added .. | .deleted _ => []

theorem digestsOf_eq (intents : List Intent) : digestsOf intents = intents.flatMap intentDigests := by
  have hbody : ∀ (tag : Tag) (b : StagedBody),
      (if b.pages.isEmpty then none else some (Digest.mk tag b.pageNos b.length crcStart)).toList
        = if b.pages = [] then [] else [Digest.mk tag b.pageNos b.length 0xFFFF#16] := by
    intro tag b
    cases hb : b.pages <;> simp [crcStart]
  rw [digestsOf, List.filterMap_eq_flatMap_toList]
  refine List.flatMap_congr fun i _ => ?_
  obtain ⟨tag, op⟩ := i
  cases op with
  | created a as =>
    cases as with
    | blob body =>
      cases body with
      | none => rfl
      | some b => exact hbody tag b
    | counter d => rfl
  | written base b => exact hbody tag b
  | added | deleted => rfl

/-- TAKE by the result of validation, the taken state's own parts aside. -/
theorem takeHead_of_conflict {p : Port} {rest : List Port} {s : State} {o : TxnOutcome} (he : s.engine = .idle)
    (hq : s.commitQueue = p :: rest) (hv : validate s (s.txns.get p).intents = some o) :
    takeHead s = rejectTxn p o (takenState p rest s) := by
  have hv' : validate (takenState p rest s) ((takenState p rest s).txns.get p).intents = some o := by
    rw [State.setTxn_txns, PortMap.get_set_self]
    exact hv
  rw [takeHead_head he hq, hv']

theorem takeHead_of_valid {p : Port} {rest : List Port} {s : State} (he : s.engine = .idle)
    (hq : s.commitQueue = p :: rest) (hv : validate s (s.txns.get p).intents = none) :
    takeHead s = reserveTxn p (takenState p rest s) := by
  have hv' : validate (takenState p rest s) ((takenState p rest s).txns.get p).intents = none := by
    rw [State.setTxn_txns, PortMap.get_set_self]
    exact hv
  rw [takeHead_head he hq, hv']

/-- Settles O45: TAKE's validation in the order of Table 5-2. -/
theorem takeValidatesInOrder : Obligations.TakeValidatesInOrder := by
  intro p rest s he hq ctx needed digests rejects
  have hrejects : ∀ o, o.gen = 0#32 → validate s (s.txns.get p).intents = some o → rejects o := by
    intro o hg hv
    refine congrArg Host.Outcome.next ?_
    rw [takeHead_of_conflict he hq hv, rejectTxn_eq, hg]
    simp [State.setTxn, ctx]
  have hentries : freeEntries s = 256 - entriesInUse s.directory := by
    simp only [freeEntries, he, reservedEntries]
    rfl
  have hslots : freeSlots s = 128 - s.directory.length := by
    simp only [freeSlots, he, reservedSlots]
    rfl
  have hneeded : slotsNeeded s.directory (s.txns.get p).intents = needed := slotsNeeded_eq ..
  have hdigests : digestsOf (s.txns.get p).intents = digests := digestsOf_eq ..
  refine ⟨fun hg => hrejects _ rfl (if_pos hg), fun hg before i behind hsplit hbefore hi => hrejects _ rfl ?_,
    fun hg hpass => ?_⟩
  · have hsplit' : (s.txns.get p).intents = before ++ i :: behind := hsplit
    rw [validate, if_neg hg, hsplit', firstConflict_of_fails hbefore hi]
  · have hnone : firstConflict s.directory (s.txns.get p).intents = none := firstConflict_eq_none_iff.mpr hpass
    have hvalid : validate s (s.txns.get p).intents
        = if 256 - entriesInUse s.directory < ctx.intents.length then some (.noSpace .versions)
          else if 128 - s.directory.length < needed then some (.noSpace .slots) else none := by
      rw [validate, if_neg hg, hnone]
      simp only [hentries, hslots, hneeded]
      rfl
    refine ⟨fun hroom => hrejects _ rfl (hvalid.trans (if_pos hroom)), fun hroom => ⟨fun hslot => hrejects _ rfl ?_,
      fun hslot => ?_⟩⟩
    · exact hvalid.trans ((if_neg (Nat.not_lt.mpr hroom)).trans (if_pos hslot))
    · have hv := hvalid.trans ((if_neg (Nat.not_lt.mpr hroom)).trans (if_neg (Nat.not_lt.mpr hslot)))
      refine congrArg Host.Outcome.next ?_
      rw [takeHead_of_valid he hq hv, ← hneeded, ← hdigests]
      simp [reserveTxn, State.setTxn, ctx]

/-! ### The CRC of a body, page by page (R105) -/

theorem Pool.bodyByte_cons (pool : Pool) (page : PageNo) (pages : List PageNo) (k : Nat) :
    pool.bodyByte (page :: pages) k
      = if k < 32 then cellRead 0#8 pool.bytes (32 * page + k) else pool.bodyByte pages (k - 32) := by
  have hsize : Config.pageSize = 32 := rfl
  simp only [Pool.bodyByte, hsize]
  by_cases hk : k < 32
  · rw [if_pos hk, Nat.div_eq_of_lt hk, Nat.mod_eq_of_lt hk]
    rfl
  · have hdiv : k / 32 = (k - 32) / 32 + 1 := by omega
    have hmod : (k - 32) % 32 = k % 32 := by omega
    rw [if_neg hk, hdiv, hmod, List.getElem?_cons_succ]

theorem Pool.page_getElem? (pool : Pool) (page : PageNo) {k : Nat} (hk : k < 32) :
    (pool.page page)[k]? = some (cellRead 0#8 pool.bytes (32 * page + k)) := by
  have hsize : Config.pageSize = 32 := rfl
  simp [Pool.page, readBlock, hsize, hk]

theorem Pool.page_length (pool : Pool) (page : PageNo) : (pool.page page).length = 32 := readBlock_length ..

theorem Pool.body_length (pool : Pool) (pages : List PageNo) (length : Nat) : (pool.body pages length).length = length := by
  simp [Pool.body]

/-- A body is its first page, as far as the length reaches, and the body of the other pages. -/
theorem Pool.body_cons (pool : Pool) (page : PageNo) (pages : List PageNo) (length : Nat) :
    pool.body (page :: pages) length = (pool.page page).take length ++ pool.body pages (length - 32) := by
  refine List.ext_getElem? fun k => ?_
  have hlen : ((pool.page page).take length).length = min length 32 := by rw [List.length_take, pool.page_length]
  by_cases hk : k < length
  · have hbody : (pool.body (page :: pages) length)[k]? = some (pool.bodyByte (page :: pages) k) := by
      simp [Pool.body, hk]
    rw [hbody, pool.bodyByte_cons]
    by_cases h32 : k < 32
    · rw [if_pos h32, List.getElem?_append_left (by omega), List.getElem?_take_of_lt hk, pool.page_getElem? page h32]
    · rw [if_neg h32, List.getElem?_append_right (by omega), hlen]
      have hmin : k - min length 32 = k - 32 := by omega
      simp only [hmin, Pool.body, List.getElem?_map]
      rw [List.getElem?_range (by omega)]
      rfl
  · rw [List.getElem?_eq_none (by rw [pool.body_length]; omega), List.getElem?_eq_none]
    rw [List.length_append, hlen, pool.body_length]
    omega

theorem crcFeed_append (crc : Crc) (xs ys : List Byte) : crcFeed crc (xs ++ ys) = crcFeed (crcFeed crc xs) ys :=
  List.foldl_append ..

theorem Commit.digestPage_of_last {pool : Pool} {c : Commit} {d : Digest} {others : List Digest} {page : PageNo}
    (ht : c.todo = d :: others) (hp : d.pages = [page]) : c.digestPage pool = { c with
      todo := others, done := c.done ++ [(d.tag, crcFeed d.crc ((pool.page page).take d.bytesLeft))] } := by
  simp only [Commit.digestPage, ht, hp, List.isEmpty_nil, if_true, Digest.feed]

theorem Commit.digestPage_of_more {pool : Pool} {c : Commit} {d : Digest} {others : List Digest} {page : PageNo}
    {pages : List PageNo} (ht : c.todo = d :: others) (hp : d.pages = page :: pages) (hmore : pages ≠ []) :
    c.digestPage pool = { c with
      todo := ⟨d.tag, pages, d.bytesLeft - 32, crcFeed d.crc ((pool.page page).take d.bytesLeft)⟩ :: others } := by
  have hne : pages.isEmpty = false := by simpa using hmore
  simp only [Commit.digestPage, ht, hp, hne]
  rfl

/-- As many pages fed as a body holds give the CRC of its bytes, from any running value. -/
theorem Commit.digestPage_iterate {pool : Pool} {tag : Tag} {others : List Digest} (pages : List PageNo) {page : PageNo}
    {length : Nat} {crc : Crc} {c : Commit} (hlen : pages.length + 1 = pagesFor length)
    (ht : c.todo = ⟨tag, page :: pages, length, crc⟩ :: others) :
    (Commit.digestPage pool)^[pages.length + 1] c
      = { c with todo := others, done := c.done ++ [(tag, crcFeed crc (pool.body (page :: pages) length))] } := by
  have hpages : pagesFor length = (length + 31) / 32 := rfl
  rw [hpages] at hlen
  induction pages generalizing page length crc c with
  | nil =>
    have hshort : length - 32 = 0 := by simp at hlen; omega
    rw [List.length_nil, Function.iterate_one, digestPage_of_last ht rfl, Pool.body_cons, hshort]
    simp [Pool.body]
  | cons next rest ih =>
    rw [List.length_cons] at hlen
    rw [List.length_cons, Function.iterate_succ_apply, digestPage_of_more ht rfl (List.cons_ne_nil _ _),
      ih (page := next) (length := length - 32) (by omega) rfl rfl]
    rw [Pool.body_cons pool page, crcFeed_append]

/-- Settles O46: one page fed, and by induction on the pages the CRC of the body. -/
theorem digestGivesTheCrcOfTheBody : Obligations.DigestGivesTheCrcOfTheBody := by
  refine ⟨fun s c d others page pages he ht hp => ⟨fun hlast => ?_, fun hmore => ?_⟩,
    fun pool c tag pages length others hpos hlen ht => ?_⟩
  · subst hlast
    refine congrArg Host.Outcome.next ?_
    simp only [digestPage, he, Commit.digestPage_of_last ht hp]
  · refine congrArg Host.Outcome.next ?_
    simp only [digestPage, he, Commit.digestPage_of_more ht hp hmore]
  · cases pages with
    | nil =>
      have hzero : (length + 31) / 32 = 0 := hlen.symm
      omega
    | cons page rest => exact Commit.digestPage_iterate rest hlen ht

/-! ### The contents that a publish installs (R111, R112) -/

theorem digestOf_eq_lookup (done : List (Tag × Crc)) (tag : Tag) : digestOf done tag = (done.lookup tag).getD 0xFFFF#16 := by
  induction done with
  | nil => rfl
  | cons x rest ih =>
    obtain ⟨t, crc⟩ := x
    by_cases ht : t = tag
    · subst ht
      simp [digestOf]
    · have hne : (tag == t) = false := by simpa using fun h => ht h.symm
      rw [List.lookup_cons, hne, ← ih]
      simp [digestOf, ht]

theorem counterSum_toNat (base : BitVec 32) (delta : Int) :
    ((counterSum base delta).toNat : Int) = max 0 (min 0xFFFFFFFF ((base.toNat : Int) + delta)) := by
  rw [counterSum, BitVec.toNat_ofInt]
  omega

theorem carriedAttrs_of_head {dir : List DirSlot} {tag : Tag} {v : Version} {a : Attrs}
    (h : (chainOf dir tag).head? = some v) (hv : v.isTombstone = false) (ha : v.attrs? = some a) :
    carriedAttrs dir tag = a := by
  simp only [carriedAttrs, lookup_of_live_head h hv, ha, Option.getD_some]

theorem carriedValue_of_head {dir : List DirSlot} {tag : Tag} {v : Version}
    (h : (chainOf dir tag).head? = some v) (hv : v.isTombstone = false) : carriedValue dir tag = v.value := by
  simp only [carriedValue, lookup_of_live_head h hv]

/-- Settles O48: the contents by operation. -/
theorem installedContentsFollowTheOperation : Obligations.InstalledContentsFollowTheOperation := by
  intro dir done i
  refine ⟨fun a hop => ?_, fun a body crc hop hd => ?_, fun a body hop hd => ?_,
    fun base body gen a n pages crc crc' hop hh hd => ?_, fun base body gen a n pages crc hop hh hd => ?_,
    fun a d hop => ⟨counterSum 0#32 d, ?_, ?_⟩, fun base d gen a y crc hop hh => ⟨counterSum y d, counterSum_toNat y d, ?_⟩,
    fun base hop => ?_⟩
  · simp only [installedContent, hop, crcStart]
  · simp only [installedContent, hop, digestOf_eq_lookup, hd, Option.getD_some]
  · simp only [installedContent, hop, digestOf_eq_lookup, hd, Option.getD_none]
  · simp only [installedContent, hop, digestOf_eq_lookup, hd, Option.getD_some, carriedAttrs_of_head hh rfl rfl]
  · simp only [installedContent, hop, digestOf_eq_lookup, hd, Option.getD_none, carriedAttrs_of_head hh rfl rfl]
  · simpa using counterSum_toNat 0#32 d
  · simp only [installedContent, hop, counterContent]
  · simp only [installedContent, hop, counterContent, carriedAttrs_of_head hh rfl rfl, carriedValue_of_head hh rfl,
      Version.value]
  · simp only [installedContent, hop]

end Sys2Proof.Machine
end

section
/-! SUPPORT. EVENT_PEEK, EVENT_ACK and FLAG_CLEAR, and the checkpoint: its requests, what its polls send, how its flash
happenings move it on and how they end it. Then the statements about them. -/

namespace Sys2Proof.Machine

/-! ### EVENT_PEEK, EVENT_ACK and FLAG_CLEAR (R127, R128, R131) -/

section
variable {n : Notify}

theorem Notify.acknowledge_eq (h : n.Ok) (count : Nat) : n.acknowledge count = { n with
    queue := n.queue.drop count
    flags := if n.queue.drop count = [] then n.flags &&& 0x3E#6 else n.flags
    attnLow := (if n.queue.drop count = [] then n.flags &&& 0x3E#6 else n.flags) &&& n.mask != 0#6 } := by
  by_cases hl : n.queue.drop count = []
  · have hq : (~~~flagQueue : FlagSet) = 0x3E#6 := by decide
    simp only [Notify.acknowledge, Notify.settle, hl, List.isEmpty_nil, if_true, hq]
  · have hq : n.queue ≠ [] := fun hn => hl (by rw [hn, List.drop_nil])
    rw [Notify.acknowledge, Notify.settle_of_ne_nil hl]
    simp only [h.flags_or_flagQueue hq, hl, if_false]

theorem queue_of_clear (f g : FlagSet) : (f &&& ~~~(g &&& ~~~flagQueue)) &&& flagQueue = f &&& flagQueue := by
  revert f g
  decide

theorem Notify.clear_eq (h : n.Ok) (named : Byte) : n.clear (flagsOfByte named) = { n with
    flags := n.flags &&& ~~~(named.setWidth 6 &&& 0x3E#6)
    lost := if named.getLsbD 1 then 0 else n.lost
    attnLow := (n.flags &&& ~~~(named.setWidth 6 &&& 0x3E#6)) &&& n.mask != 0#6 } := by
  have hq : (~~~flagQueue : FlagSet) = 0x3E#6 := by decide
  have hoverflow : flagsOfByte named &&& flagOverflow = 0#6 ↔ named.getLsbD 1 = false := by
    revert named
    decide
  have hlost : (if flagsOfByte named &&& flagOverflow = 0#6 then n.lost else 0) = if named.getLsbD 1 then 0 else n.lost := by
    cases hb : named.getLsbD 1
    · rw [if_pos (hoverflow.mpr hb)]
      rfl
    · rw [if_neg (fun h => by rw [hoverflow.mp h] at hb; cases hb)]
      rfl
  rw [Notify.clear, Notify.settle_of_queueFlag (by simpa only [queue_of_clear] using h.queueFlag)]
  simp only [hlost]
  rw [hq]
  rfl

end

/-- Settles O51: the queue by its oldest entries, the flags by their masks. -/
theorem peekCopiesAckRemovesFlagClearClears : Obligations.PeekCopiesAckRemovesFlagClearClears := by
  refine ⟨⟨fun p s h => ?_, fun p s count h hok => ?_⟩, fun p s named h hok => ⟨fun hn => ?_, fun hn => ?_⟩,
    by decide, by decide, fun o => rfl⟩
  · exact exec_requestRow_taken (r := .eventPeek) (t := s) (a := ⟨.ok, peekPayload (s.notes.get p)⟩) h le_rfl rfl
  · refine (exec_requestRow_taken (r := .eventAck) (t := s.setNote p ((s.notes.get p).acknowledge count.toNat))
      (a := ⟨.ok, [natByte ((s.notes.get p).acknowledge count.toNat).queue.length]⟩) h le_rfl rfl).trans ?_
    rw [Notify.acknowledge_eq hok]
    rfl
  · have hb := (flagByteOk_iff named).mpr hn
    refine (exec_requestRow_taken (r := .flagClear) (t := s.setNote p ((s.notes.get p).clear (flagsOfByte named)))
      (a := ⟨.ok, [byteOfFlags ((s.notes.get p).clear (flagsOfByte named)).flags]⟩) h le_rfl ?_).trans ?_
    · show takeFlagClear p named (judgedState p s) = _
      simp only [takeFlagClear, hb, if_true]
      rfl
    · rw [Notify.clear_eq hok]
      rfl
  · have hb : ¬ flagByteOk named = true := fun hb => Nat.not_lt.mpr hn ((flagByteOk_iff named).mp hb)
    refine exec_requestRow_taken (r := .flagClear) (t := s) (a := ⟨.range, [byteOfFlags (s.notes.get p).flags]⟩) h le_rfl ?_
    show takeFlagClear p named (judgedState p s) = _
    simp only [takeFlagClear, hb]
    rfl

/-! ### CHECKPOINT and CHECKPOINT_CANCEL (R151, R159) -/

section
variable {p : Port} {s : State}

theorem endCheckpoint_judgedState (r : ImageResult) (p : Port) (s : State) :
    endCheckpoint r (judgedState p s) = judgedState p (endCheckpoint r s) := rfl

theorem takeCheckpoint_of_denied (h : s.priv.getLsbD p.index = false) :
    takeCheckpoint p s = (s, Answer.bare .denied) := by
  have hp : privileged s p = false := h
  simp [takeCheckpoint, hp]

theorem takeCheckpointCancel_of_denied (h : s.priv.getLsbD p.index = false) :
    takeCheckpointCancel p s = (s, Answer.bare .denied) := by
  have hp : privileged s p = false := h
  simp [takeCheckpointCancel, hp]

section
variable (h : s.priv.getLsbD p.index = true)
include h

theorem takeCheckpoint_of_busy {c : Checkpoint} (hc : s.image.checkpoint = some c) :
    takeCheckpoint p s = (s, Answer.bare .busy) := by
  have hp : privileged s p = true := h
  simp only [takeCheckpoint, hp, if_true, hc]

theorem takeCheckpoint_of_exhausted (hc : s.image.checkpoint = none) (hs : s.image.sequence = 0xFFFFFFFF#32) :
    takeCheckpoint p s = (s, Answer.bare .exhausted) := by
  have hp : privileged s p = true := h
  simp only [takeCheckpoint, hp, if_true, hc, hs]

theorem takeCheckpoint_of_room (hc : s.image.checkpoint = none) (hs : s.image.sequence ≠ 0xFFFFFFFF#32) :
    takeCheckpoint p s = (withCheckpoint ⟨.erasing 0, checkpointTarget s, 0, 0⟩ (pollFor .erase) { s with slot4 := some s.g },
      ⟨.ok, (checkpointTarget s).code :: be32 (s.image.sequence + 1#32)⟩) := by
  have hp : privileged s p = true := h
  simp only [takeCheckpoint, hp, if_true, hc, hs, if_false]

theorem takeCheckpointCancel_of_idle (hc : s.image.checkpoint = none) :
    takeCheckpointCancel p s = (s, Answer.bare .idle) := by
  have hp : privileged s p = true := h
  simp only [takeCheckpointCancel, hp, if_true, hc]

theorem takeCheckpointCancel_of_sealing {c : Checkpoint} (hc : s.image.checkpoint = some c) (hs : c.stage = .sealing) :
    takeCheckpointCancel p s = (s, Answer.bare .tooLate) := by
  have hp : privileged s p = true := h
  simp only [takeCheckpointCancel, hp, if_true, hc, hs]

theorem takeCheckpointCancel_of_stage {c : Checkpoint} (hc : s.image.checkpoint = some c)
    (hs : (∃ k, c.stage = .erasing k) ∨ ∃ u position, c.stage = .writing u position) :
    takeCheckpointCancel p s = (endCheckpoint .cancelled s, Answer.bare .ok) := by
  have hp : privileged s p = true := h
  rcases hs with ⟨k, hs⟩ | ⟨u, position, hs⟩ <;> simp only [takeCheckpointCancel, hp, if_true, hc, hs]

end
end

/-- Settles O53: the checks in their order, the accepted checkpoint and the cancelled end. -/
theorem checkpointBindsSlotFourAndCancelEndsIt : Obligations.CheckpointBindsSlotFourAndCancelEndsIt := by
  refine ⟨fun p s h => ?_, fun p s h => ?_⟩
  · have hrefused : ∀ r, takeCheckpoint p (judgedState p s) = (judgedState p s, Answer.bare r) →
        exec (.checkpoint p) s = .next (replied p r 0x40#8 s.g [] s) := fun r hr =>
      exec_requestRow_taken (r := .checkpoint) (t := s) (a := Answer.bare r) h le_rfl hr
    have haccepted : s.priv.getLsbD p.index = true → s.image.checkpoint = none → s.image.sequence ≠ 0xFFFFFFFF#32 →
        exec (.checkpoint p) s = .next (replied p .ok 0x40#8 s.g
          ((checkpointTarget s).code :: be32 (s.image.sequence + 1#32))
          (withCheckpoint ⟨.erasing 0, checkpointTarget s, 0, 0⟩ (pollFor .erase) { s with slot4 := some s.g })) := by
      intro hp hc hs
      exact exec_requestRow_taken (r := .checkpoint)
        (a := ⟨.ok, (checkpointTarget s).code :: be32 (s.image.sequence + 1#32)⟩) h le_rfl
        (takeCheckpoint_of_room (s := judgedState p s) hp hc hs)
    refine ⟨fun hp => hrefused _ (takeCheckpoint_of_denied hp), fun hp c hc => hrefused _ (takeCheckpoint_of_busy hp hc),
      fun hp hc => ⟨fun hs => hrefused _ (takeCheckpoint_of_exhausted hp hc hs), fun hs => ⟨fun hcur => ?_, fun hcur => ?_⟩⟩⟩
    · have ht : checkpointTarget s = .slot1 := by simp only [checkpointTarget, hcur]
      refine (haccepted hp hc hs).trans ?_
      rw [ht]
      rfl
    · have ht : checkpointTarget s = .slot0 := by rcases hcur with hcur | hcur <;> simp only [checkpointTarget, hcur]
      refine (haccepted hp hc hs).trans ?_
      rw [ht]
      rfl
  · have hrefused : ∀ r, takeCheckpointCancel p (judgedState p s) = (judgedState p s, Answer.bare r) →
        exec (.checkpointCancel p) s = .next (replied p r 0x41#8 s.g [] s) := fun r hr =>
      exec_requestRow_taken (r := .checkpointCancel) (t := s) (a := Answer.bare r) h le_rfl hr
    refine ⟨fun hp => hrefused _ (takeCheckpointCancel_of_denied hp), fun hp =>
      ⟨fun hc => hrefused _ (takeCheckpointCancel_of_idle hp hc),
        fun c hc hs => hrefused _ (takeCheckpointCancel_of_sealing hp hc hs), fun c hc hs => ?_⟩⟩
    refine ⟨endCheckpoint .cancelled s, endCheckpoint_ended .cancelled s, ?_⟩
    exact exec_requestRow_taken (r := .checkpointCancel) (a := Answer.bare .ok) h le_rfl
      ((takeCheckpointCancel_of_stage (s := judgedState p s) hp hc hs).trans
        (congrArg (fun u => (u, Answer.bare .ok)) (endCheckpoint_judgedState .cancelled p s)))

/-! ### The expiries of the flash timers (R138 to R140) -/

section
variable {s : State} {c : Checkpoint}

theorem not_due {timer : Timer} (h : timer ≠ some 0) : Timer.due timer = false := by
  simpa using mt (Timer.due_iff timer).mp h

theorem pollTimeout_of_load {timer : Timer} (h : s.image.op = .poll .loadRead timer) :
    pollTimeout s = if timer.due then failLoadPoll s else s := by
  simp only [pollTimeout, h]

theorem pollTimeout_of_checkpoint {next : AfterPoll} {timer : Timer} (h : s.image.op = .poll next timer)
    (hn : next ≠ .loadRead) (hc : s.image.checkpoint = some c) :
    pollTimeout s = if timer.due then endCheckpoint (.failed (stageCause c)) s else s := by
  cases next with
  | loadRead => exact absurd rfl hn
  | erase | program | readback addr data => simp only [pollTimeout, h, hc]

theorem pollTimeout_of_not_due {next : AfterPoll} {timer : Timer} (h : s.image.op = .poll next timer)
    (ht : timer ≠ some 0) : pollTimeout s = s := by
  simp [pollTimeout, h, not_due ht]

theorem expireErase_of_op {addr : Nat} {timer : Timer} (h : s.image.op = .erase addr timer) :
    expireErase s = if timer.due then endCheckpoint (.failed .eraseTimeout) s else s := by
  simp only [expireErase, h]

theorem expireProgram_of_op {addr : Nat} {data : List Byte} {timer : Timer} (h : s.image.op = .program addr data timer) :
    expireProgram s = if timer.due then endCheckpoint (.failed .programTimeout) s else s := by
  simp only [expireProgram, h]

end

/-- Settles O56: a due expiry ends its work, any other changes nothing. -/
theorem flashTimeoutsEndTheirWork : Obligations.FlashTimeoutsEndTheirWork := by
  intro s
  have due : Timer.due (some 0) = true := rfl
  refine ⟨fun timer hop ht hl => ?_, fun timer hop hl => congrArg Host.Outcome.next ?_,
    fun after timer c hop ht hn hc => ⟨?_, fun hs => ?_⟩, fun after timer hop ht => congrArg Host.Outcome.next
      (pollTimeout_of_not_due hop ht), fun addr timer hop => ⟨fun ht => ?_, fun ht => congrArg Host.Outcome.next ?_⟩,
    fun addr data timer hop => ⟨fun ht => ?_, fun ht => congrArg Host.Outcome.next ?_⟩⟩
  · subst ht
    obtain ⟨hfail, -⟩ := failLoadPoll_cases s
    have hended := hfail hl
    refine ⟨failLoadPoll s, congrArg Host.Outcome.next ?_, hended.image, hended.notes, hended.rest, fun hok => ?_⟩
    · rw [pollTimeout_of_load hop, due, if_pos rfl]
    · rw [hended.rest]
      exact hok.notYetInstalled (.inl hl)
  · obtain ⟨-, hstay⟩ := failLoadPoll_cases s
    rw [pollTimeout_of_load hop, hstay hl, ite_self]
  · rintro ⟨k, hs⟩
    subst ht
    have hcause : stageCause c = .eraseTimeout := by simp only [stageCause, hs]
    refine ⟨_, endCheckpoint_ended _ s, congrArg Host.Outcome.next ?_⟩
    rw [pollTimeout_of_checkpoint hop hn hc, due, if_pos rfl, hcause]
  · subst ht
    have hcause : stageCause c = .programTimeout := by
      rcases hs with hs | ⟨u, position, hs⟩ <;> simp only [stageCause, hs]
    refine ⟨_, endCheckpoint_ended _ s, congrArg Host.Outcome.next ?_⟩
    rw [pollTimeout_of_checkpoint hop hn hc, due, if_pos rfl, hcause]
  · subst ht
    refine ⟨_, endCheckpoint_ended _ s, congrArg Host.Outcome.next ?_⟩
    rw [expireErase_of_op hop, due, if_pos rfl]
  · rw [expireErase_of_op hop, not_due ht]
    rfl
  · subst ht
    refine ⟨_, endCheckpoint_ended _ s, congrArg Host.Outcome.next ?_⟩
    rw [expireProgram_of_op hop, due, if_pos rfl]
  · rw [expireProgram_of_op hop, not_due ht]
    rfl

/-! ### The ends of flash operations (R139 to R141, R153 to R155) -/

theorem head?_of_attrs {v : Version} {a : Attrs} (h : v.attrs? = some a) (tag : Tag) :
    ∃ kind, v.kind? = some kind ∧ v.head? tag = some (entryHead tag kind a v.length v.crc) := by
  obtain ⟨gen, content⟩ := v
  cases content with
  | blob b n pages crc =>
    cases h
    exact ⟨.blob, rfl, rfl⟩
  | counter b x crc =>
    cases h
    exact ⟨.counter, rfl, rfl⟩
  | tombstone => cases h

theorem entryHead_length (tag : Tag) (kind : Kind) (attrs : Attrs) (length : Nat) (crc : Crc) :
    (entryHead tag kind attrs length crc).length = 8 := rfl

theorem Version.body_length (pool : Pool) (v : Version) : (v.body pool).length = v.length := by
  simp [Version.body]

/-- A saved record has attributes: it is visible and PERSISTENT (R152). -/
theorem attrs_of_mem_savedRecords {dir : List DirSlot} {gen : Gen} {x : Tag × Version} (h : x ∈ savedRecords dir gen) :
    ∃ writers, x.2.attrs? = some ⟨writers, .persistent⟩ := by
  have hp := (List.mem_filter.mp h).2
  split at hp
  next a ha =>
    obtain ⟨writers, persist⟩ := a
    cases (beq_iff_eq.mp hp : persist = .persistent)
    exact ⟨writers, ha⟩
  next => cases hp

theorem imageEntry_length {pool : Pool} {x : Tag × Version} {a : Attrs} (h : x.2.attrs? = some a) :
    (imageEntry pool x).length = 8 + x.2.length := by
  obtain ⟨kind, -, hh⟩ := head?_of_attrs h x.1
  simp only [imageEntry, hh, List.length_append, entryHead_length, Version.body_length]

/-- The image stream is as long as the heads and bodies of its records. -/
theorem imageStream_length (pool : Pool) {records : List (Tag × Version)} (h : ∀ x ∈ records, ∃ a, x.2.attrs? = some a) :
    (imageStream pool records).length = streamLength records := by
  rw [imageStream, List.length_flatMap, streamLength]
  refine congrArg List.sum (List.map_congr_left fun x hx => ?_)
  obtain ⟨a, ha⟩ := h x hx
  exact imageEntry_length ha

theorem streamLength_eq_zero_iff (records : List (Tag × Version)) : streamLength records = 0 ↔ records = [] := by
  cases records with
  | nil => simp [streamLength]
  | cons x rest => simp [streamLength]

/-- Settles O55: each end by the stage it finds. -/
theorem flashEndsAdvanceTheCheckpoint : Obligations.FlashEndsAdvanceTheCheckpoint := by
  intro bytes s c hc stream settled moves
  have hlen : stream.length = streamLength (checkpointRecords s) :=
    imageStream_length s.pool fun x hx => by
      obtain ⟨writers, ha⟩ := attrs_of_mem_savedRecords hx
      exact ⟨_, ha⟩
  have hempty : stream = [] ↔ checkpointRecords s = [] := by
    rw [← List.length_eq_zero_iff, hlen, streamLength_eq_zero_iff]
  refine ⟨fun addr timer k hop hs => ?_, fun addr data timer hop => congrArg Host.Outcome.next ?_, fun addr data hop => ?_⟩
  · have hrow : eraseDone bytes s = eraseEnded c (settledState bytes s) := by simp only [eraseDone, hop, hc]
    have hrecords : checkpointRecords (settledState bytes s) = checkpointRecords s := rfl
    refine ⟨fun hk => congrArg Host.Outcome.next ?_, fun hk he => congrArg Host.Outcome.next ?_,
      fun hk he => congrArg Host.Outcome.next ?_⟩
    · have hlt : k + 1 < Config.sectors := Nat.succ_lt_succ hk
      rw [hrow]
      simp only [eraseEnded, hs, hlt, if_true]
      rfl
    · have hge : ¬ k + 1 < Config.sectors := Nat.not_lt.mpr (Nat.succ_le_succ hk)
      rw [hrow]
      simp only [eraseEnded, hs, hge, if_false, hrecords, hempty.mp he, List.isEmpty_nil, if_true]
      rfl
    · have hge : ¬ k + 1 < Config.sectors := Nat.not_lt.mpr (Nat.succ_le_succ hk)
      have hne : (checkpointRecords s).isEmpty = false := by simpa using mt hempty.mpr he
      rw [hrow]
      simp only [eraseEnded, hs, hge, if_false, hrecords, hne]
      rfl
  · simp only [programDone, hop]
    rfl
  · intro got
    have hrow : readbackDone bytes s = if got = data then unitVerified c s else endCheckpoint (.failed .verify) s := by
      simp only [readbackDone, hop, readbackEnded, hc]
      rfl
    refine ⟨fun hg u position hs => ⟨fun hlt => congrArg Host.Outcome.next ?_, fun hle => congrArg Host.Outcome.next ?_⟩,
      fun hg hs => ⟨_, endCheckpoint_ended _ _, congrArg Host.Outcome.next ?_⟩,
      fun hg => ⟨_, endCheckpoint_ended _ _, congrArg Host.Outcome.next (hrow.trans (if_neg hg))⟩⟩
    · rw [hlen] at hlt
      refine (hrow.trans (if_pos hg)).trans ?_
      have hlt' : Config.unitSize * (u + 1) < streamLength (checkpointRecords s) := hlt
      simp only [unitVerified, hs, hlt', if_true]
      rfl
    · rw [hlen] at hle
      refine (hrow.trans (if_pos hg)).trans ?_
      have hle' : ¬ Config.unitSize * (u + 1) < streamLength (checkpointRecords s) := Nat.not_lt.mpr hle
      simp only [unitVerified, hs, hle', if_false]
      rfl
    · refine (hrow.trans (if_pos hg)).trans ?_
      simp only [unitVerified, hs]
      rfl

/-! ### What a ready poll sends (R138, R154, R155) -/

/-- The records placed within the first bytes of the stream are those that begin there (R154). -/
theorem placedWithin_eq_take (room : Nat) (records : List (Tag × Version)) :
    ∃ n, placedWithin room records = records.take n
      ∧ ∀ k, k < records.length → (k < n ↔ ((records.take k).map (fun x => 8 + x.2.length)).sum < room) := by
  induction records generalizing room with
  | nil => exact ⟨0, rfl, fun k hk => absurd hk (Nat.not_lt_zero k)⟩
  | cons x rest ih =>
    rw [placedWithin]
    by_cases hr : room = 0
    · refine ⟨0, by rw [if_pos hr, List.take_zero], fun k _ => ?_⟩
      omega
    · obtain ⟨n, hn, hk⟩ := ih (room - (8 + x.2.length))
      refine ⟨n + 1, by rw [if_neg hr, hn, List.take_succ_cons], fun k hlt => ?_⟩
      cases k with
      | zero => simp; omega
      | succ k =>
        have := hk k (by simpa using hlt)
        rw [List.take_succ_cons, List.map_cons, List.sum_cons]
        omega

theorem mem_savedRecords_iff {dir : List DirSlot} (hdir : (dir.map DirSlot.tag).Pairwise (· < ·)) {gen : Gen} {tag : Tag}
    {v : Version} : (tag, v) ∈ savedRecords dir gen
      ↔ visible dir tag gen = some v ∧ ∃ writers, v.attrs? = some ⟨writers, .persistent⟩ := by
  refine ⟨fun h => ⟨(mem_visibleRecords_iff hdir).mp (List.mem_of_mem_filter h), attrs_of_mem_savedRecords h⟩, ?_⟩
  rintro ⟨hv, writers, ha⟩
  refine List.mem_filter.mpr ⟨(mem_visibleRecords_iff hdir).mpr hv, ?_⟩
  simp only [ha]
  rfl

theorem savedRecords_rise {dir : List DirSlot} (hdir : (dir.map DirSlot.tag).Pairwise (· < ·)) (gen : Gen) :
    (savedRecords dir gen).Pairwise (fun x y => x.1 < y.1) :=
  (visibleRecords_rise hdir gen).sublist List.filter_sublist

/-- Settles O54: the operation that each poll precedes, and the unit that a program fills. -/
theorem pollReadySendsTheOperation : Obligations.PollReadySendsTheOperation := by
  refine ⟨fun left s timer => ?_, placedWithin_eq_take, fun dir gen hdir => ⟨?_, fun tag v => mem_savedRecords_iff hdir⟩⟩
  · intro settled records goesOn
    have hload : s.image.op = .poll .loadRead timer → pollReady left s = sendLoadRead (settledState left s) := by
      intro hop
      simp only [pollReady, hop]
    refine ⟨fun hop hl => congrArg Host.Outcome.next ?_, fun hop hl => congrArg Host.Outcome.next ?_,
      fun addr data hop => congrArg Host.Outcome.next ?_, fun c k hop hc hs => congrArg Host.Outcome.next ?_,
      fun c u position hop hc hs => ?_, fun c hop hc hs => congrArg Host.Outcome.next ?_⟩
    · obtain ⟨-, hsend⟩ := sendLoadRead_cases (settledState left s)
      rw [hload hop, hsend hl]
    · obtain ⟨hsend, -⟩ := sendLoadRead_cases (settledState left s)
      rw [hload hop, hsend hl]
    · simp only [pollReady, hop]
      rfl
    · have hrow : pollReady left s = sendErase c (settledState left s) := by simp only [pollReady, hop, hc]
      rw [hrow]
      simp only [sendErase, hs, withCheckpoint, ← hc]
      rfl
    · intro bytes data addr placed position'
      refine congrArg Host.Outcome.next ?_
      have hrow : pollReady left s = sendProgram c (settledState left s) := by simp only [pollReady, hop, hc]
      rw [hrow]
      simp only [sendProgram, hs]
      rfl
    · have hrow : pollReady left s = sendProgram c (settledState left s) := by simp only [pollReady, hop, hc]
      rw [hrow]
      simp only [sendProgram, hs, withCheckpoint, ← hc]
      rfl
  · rw [List.pairwise_map]
    exact savedRecords_rise hdir gen

end Sys2Proof.Machine
end

section
/-! SUPPORT. The page pool by its parts: what allocation, loss, gain and a write do to the reference counts, the free list
and the bytes of every page, and the loader's pages. -/

namespace Sys2Proof.Machine

/-- The byte at an offset of a page. -/
def Pool.pageByte (pool : Pool) (n : PageNo) (j : Nat) : Byte := cellRead 0#8 pool.bytes (32 * n + j)

section
variable {pool pool' : Pool} {contents : List Byte} {n : PageNo}

theorem Pool.page_eq_map (pool : Pool) (n : PageNo) : pool.page n = (List.range 32).map (pool.pageByte n) := rfl

theorem Pool.page_congr (h : ∀ j, j < 32 → pool'.pageByte n j = pool.pageByte n j) : pool'.page n = pool.page n := by
  rw [pool'.page_eq_map, pool.page_eq_map]
  exact List.map_congr_left fun j hj => h j (List.mem_range.mp hj)

theorem Pool.page_getD (pool : Pool) (n : PageNo) {j : Nat} (hj : j < 32) : (pool.page n).getD j 0#8 = pool.pageByte n j := by
  rw [List.getD_eq_getElem?_getD, pool.page_getElem? n hj]
  rfl

theorem Pool.bodyByte_eq (pool : Pool) (pages : List PageNo) (k : Nat) : pool.bodyByte pages k
    = match pages[k / 32]? with
      | none => 0#8
      | some n => pool.pageByte n (k % 32) := rfl

theorem Pool.bodyByte_of_get {pages : List PageNo} {k : Nat} (h : pages[k / 32]? = some n) :
    pool.bodyByte pages k = pool.pageByte n (k % 32) := by
  rw [Pool.bodyByte_eq, h]

theorem Pool.bodyByte_of_past {pages : List PageNo} {k : Nat} (h : 32 * pages.length ≤ k) :
    pool.bodyByte pages k = 0#8 := by
  rw [Pool.bodyByte_eq, List.getElem?_eq_none (by omega)]

/-- A body reads the same in a pool that holds its pages' bytes. -/
theorem Pool.bodyByte_congr {pages : List PageNo} (h : ∀ n ∈ pages, ∀ j, j < 32 → pool'.pageByte n j = pool.pageByte n j)
    (k : Nat) : pool'.bodyByte pages k = pool.bodyByte pages k := by
  rw [Pool.bodyByte_eq, Pool.bodyByte_eq]
  split
  next => rfl
  next n hn => exact h n (List.mem_of_getElem? hn) _ (Nat.mod_lt k (by decide))

theorem Pool.body_congr {pages : List PageNo} (h : ∀ n ∈ pages, ∀ j, j < 32 → pool'.pageByte n j = pool.pageByte n j)
    (length : Nat) : pool'.body pages length = pool.body pages length :=
  List.map_congr_left fun k _ => Pool.bodyByte_congr h k

theorem Pool.body_of_bytes (h : pool'.bytes = pool.bytes) (pages : List PageNo) (length : Nat) :
    pool'.body pages length = pool.body pages length :=
  Pool.body_congr (fun n _ j _ => by rw [Pool.pageByte, h, Pool.pageByte]) length

/-! ### Allocation -/

theorem Pool.alloc_of_nil (h : pool.free = []) (contents : List Byte) : pool.alloc contents = none := by
  simp only [Pool.alloc, h]

theorem Pool.alloc_of_cons {rest : List PageNo} (h : pool.free = n :: rest) (contents : List Byte) :
    ∃ pool', pool.alloc contents = some (n, pool') := by
  simp only [Pool.alloc, h]
  exact ⟨_, rfl⟩

section
variable (ha : pool.alloc contents = some (n, pool'))
include ha

theorem Pool.alloc_inv : ∃ rest, pool.free = n :: rest ∧ pool' = { pool with
    free := rest
    refs := cellWrite 0 pool.refs n 1
    bytes := writeBlock 0#8 pool.bytes (32 * n) (contents ++ List.replicate (32 - contents.length) 0#8) } := by
  unfold Pool.alloc at ha
  split at ha
  · cases ha
  next m rest hf =>
    cases ha
    exact ⟨rest, hf, rfl⟩

theorem Pool.alloc_free : pool.free = n :: pool'.free := by
  obtain ⟨rest, hf, rfl⟩ := Pool.alloc_inv ha
  exact hf

theorem Pool.alloc_stagedOwned : pool'.stagedOwned = pool.stagedOwned := by
  obtain ⟨rest, -, rfl⟩ := Pool.alloc_inv ha
  rfl

theorem Pool.alloc_ref (hr : cellsWf 0 pool.refs = true) (m : PageNo) :
    pool'.ref m = if m = n then 1 else pool.ref m := by
  obtain ⟨rest, -, rfl⟩ := Pool.alloc_inv ha
  split
  next h =>
    subst h
    exact cellRead_cellWrite_self hr m 1
  next h => exact cellRead_cellWrite_of_ne _ _ h

/-- An allocated page holds its contents, completed with 0x00; the bytes of the other pages stay. -/
theorem Pool.alloc_pageByte (hb : Memory.wf 0#8 pool.bytes = true) (hlen : contents.length ≤ 32) (m : PageNo) {j : Nat}
    (hj : j < 32) : pool'.pageByte m j = if m = n then contents.getD j 0#8 else pool.pageByte m j := by
  obtain ⟨rest, -, rfl⟩ := Pool.alloc_inv ha
  have htotal : (contents ++ List.replicate (32 - contents.length) 0#8).length = 32 := by
    rw [List.length_append, List.length_replicate]
    omega
  rw [Pool.pageByte, cellRead_writeBlock 0#8 hb, htotal]
  by_cases hm : m = n
  · subst hm
    have hin : ∀ a : Nat, 32 * a ≤ 32 * a + j ∧ 32 * a + j < 32 * a + 32 := by intro a; omega
    have hoff : 32 * m + j - 32 * m = j := Nat.add_sub_cancel_left ..
    rw [if_pos (hin m), if_pos rfl]
    rw [hoff, List.getD_eq_getElem?_getD, List.getD_eq_getElem?_getD]
    by_cases hc : j < contents.length
    · rw [List.getElem?_append_left hc]
    · rw [List.getElem?_append_right (by omega), List.getElem?_eq_none (by omega : contents.length ≤ j),
        List.getElem?_replicate]
      split <;> rfl
  · have hout : ∀ a b : Nat, a ≠ b → ¬ (32 * b ≤ 32 * a + j ∧ 32 * a + j < 32 * b + 32) := by intro a b h; omega
    rw [if_neg (hout m n hm), if_neg hm, Pool.pageByte]

end

/-! ### Loss and gain -/

theorem Pool.lose_ref (hr : cellsWf 0 pool.refs = true) (n m : PageNo) :
    (pool.lose n).ref m = if m = n then pool.ref n - 1 else pool.ref m := by
  unfold Pool.lose
  by_cases hm : m = n
  · subst hm
    rw [if_pos rfl]
    split
    next h => rw [h]
    next h =>
      rw [h]
      exact cellRead_cellWrite_self hr m 0
    next k h =>
      rw [h]
      exact cellRead_cellWrite_self hr m (k + 1)
  · rw [if_neg hm]
    split
    · rfl
    · exact cellRead_cellWrite_of_ne _ _ hm
    · exact cellRead_cellWrite_of_ne _ _ hm

theorem Pool.lose_free (pool : Pool) (n : PageNo) :
    (pool.lose n).free = if pool.ref n = 1 then pool.free ++ [n] else pool.free := by
  unfold Pool.lose
  split
  next h => rw [if_neg (by omega)]
  next h => rw [if_pos h]
  next k h => rw [if_neg (by omega)]

theorem Pool.loseAll_cons (pool : Pool) (n : PageNo) (ns : List PageNo) :
    pool.loseAll (n :: ns) = (pool.lose n).loseAll ns := rfl

theorem Pool.gain_ref (hr : cellsWf 0 pool.refs = true) (n m : PageNo) :
    (pool.gain n).ref m = if m = n then pool.ref n + 1 else pool.ref m := by
  split
  next h =>
    subst h
    exact cellRead_cellWrite_self hr m _
  next h => exact cellRead_cellWrite_of_ne _ _ h

theorem Pool.gainAll_ref (hr : cellsWf 0 pool.refs = true) (ns : List PageNo) (m : PageNo) :
    (pool.gainAll ns).ref m = pool.ref m + ns.count m := by
  induction ns generalizing pool with
  | nil => rfl
  | cons n ns ih =>
    show ((pool.gain n).gainAll ns).ref m = _
    rw [ih (Pool.gain_wf hr n), Pool.gain_ref hr, List.count_cons]
    by_cases hm : m = n
    · subst hm
      simp
      omega
    · have hne : (n == m) = false := by simpa using fun h => hm h.symm
      simp [hm, hne]

theorem Pool.gainAll_free (pool : Pool) (ns : List PageNo) : (pool.gainAll ns).free = pool.free := by
  induction ns generalizing pool with
  | nil => rfl
  | cons n ns ih => exact ih _

theorem Pool.gainAll_stagedOwned (pool : Pool) (ns : List PageNo) : (pool.gainAll ns).stagedOwned = pool.stagedOwned := by
  induction ns generalizing pool with
  | nil => rfl
  | cons n ns ih => exact ih _

/-! ### The loader's pages (R36) -/

theorem loadPages_of_short {k : Nat} {bs : List Byte} (h : pool.free.length < k) : loadPages k bs pool = none := by
  induction k generalizing pool bs with
  | zero => exact absurd h (Nat.not_lt_zero _)
  | succ k ih =>
    rw [loadPages]
    cases hf : pool.free with
    | nil => rw [Pool.alloc_of_nil hf]
    | cons n rest =>
      obtain ⟨pool', ha⟩ := Pool.alloc_of_cons hf (bs.take Config.pageSize)
      have hfree := Pool.alloc_free ha
      rw [hf] at hfree h
      obtain ⟨-, rfl⟩ := List.cons_eq_cons.mp hfree
      rw [ha]
      simp only [ih (pool := pool') (by simpa using h)]

/-- What the loader's claim of pages leaves: the head of the free list taken, each page once, holding the bytes. -/
structure Pool.Loaded (pool : Pool) (k : Nat) (bs : List Byte) (pool' : Pool) : Prop where
  free : pool'.free = pool.free.drop k
  stagedOwned : pool'.stagedOwned = pool.stagedOwned
  refs : cellsWf 0 pool.refs = true → ∀ m, pool'.ref m = if m ∈ pool.free.take k then 1 else pool.ref m
  others : Memory.wf 0#8 pool.bytes = true → ∀ m, m ∉ pool.free.take k → ∀ j, j < 32 →
    pool'.pageByte m j = pool.pageByte m j
  bytes : Memory.wf 0#8 pool.bytes = true → pool.free.Nodup → ∀ i, i < 32 * k →
    pool'.bodyByte (pool.free.take k) i = bs.getD i 0#8

theorem loadPages_of_room {k : Nat} {bs : List Byte} (h : k ≤ pool.free.length) :
    ∃ pool', loadPages k bs pool = some (pool.free.take k, pool') ∧ pool.Loaded k bs pool' := by
  induction k generalizing pool bs with
  | zero =>
    exact ⟨pool, by rw [List.take_zero, loadPages], rfl, rfl, fun _ m => by simp, fun _ m _ j _ => rfl,
      fun _ _ i hi => absurd hi (by omega)⟩
  | succ k ih =>
    cases hf : pool.free with
    | nil =>
      rw [hf] at h
      exact absurd h (by simp)
    | cons n rest =>
      obtain ⟨pool1, ha⟩ := Pool.alloc_of_cons hf (bs.take 32)
      have hfree := Pool.alloc_free ha
      rw [hf] at hfree h
      obtain ⟨-, rfl⟩ := List.cons_eq_cons.mp hfree
      obtain ⟨pool', hload, hloaded⟩ := ih (pool := pool1) (bs := bs.drop 32) (by simpa using h)
      have hshort : (bs.take 32).length ≤ 32 := by simp
      refine ⟨pool', ?_, ?_, ?_, fun hr m => ?_, fun hb m hm j hj => ?_, fun hb hnodup i hi => ?_⟩
      · have ha' : pool.alloc (bs.take Config.pageSize) = some (n, pool1) := ha
        have hload' : loadPages k (bs.drop Config.pageSize) pool1 = some (pool1.free.take k, pool') := hload
        rw [loadPages, ha']
        simp only [hload', List.take_succ_cons]
      · rw [hloaded.free, hf, List.drop_succ_cons]
      · rw [hloaded.stagedOwned, Pool.alloc_stagedOwned ha]
      · have hr1 : cellsWf 0 pool1.refs = true := by
          obtain ⟨-, -, rfl⟩ := Pool.alloc_inv ha
          exact cellsWf_cellWrite hr n 1
        rw [hloaded.refs hr1, Pool.alloc_ref ha hr, hf, List.take_succ_cons]
        by_cases hm : m = n <;> simp [hm]
      · have hb1 : Memory.wf 0#8 pool1.bytes = true := by
          obtain ⟨-, -, rfl⟩ := Pool.alloc_inv ha
          exact writeBlock_wf 0#8 hb _ _
        rw [hf, List.take_succ_cons, List.mem_cons, not_or] at hm
        rw [hloaded.others hb1 m hm.2 j hj, Pool.alloc_pageByte ha hb hshort m hj, if_neg hm.1]
      · have hb1 : Memory.wf 0#8 pool1.bytes = true := by
          obtain ⟨-, -, rfl⟩ := Pool.alloc_inv ha
          exact writeBlock_wf 0#8 hb _ _
        rw [hf] at hnodup
        obtain ⟨hn, hrest⟩ := List.nodup_cons.mp hnodup
        rw [hf, List.take_succ_cons, Pool.bodyByte_cons]
        by_cases h32 : i < 32
        · have hkept := hloaded.others hb1 n (fun hmem => hn (List.mem_of_mem_take hmem)) i h32
          have hfirst := Pool.alloc_pageByte ha hb hshort n h32
          rw [if_pos rfl] at hfirst
          rw [if_pos h32]
          exact (hkept.trans hfirst).trans (getD_take h32 _)
        · have hshift : 32 + (i - 32) = i := by omega
          rw [if_neg h32, hloaded.bytes hb1 hrest (i - 32) (by omega), List.getD_eq_getElem?_getD,
            List.getElem?_drop, hshift, List.getD_eq_getElem?_getD]

/-- The loaded pages hold the body, and 0x00 past its end. -/
theorem Pool.Loaded.body_and_tail {k : Nat} {bs : List Byte} (h : pool.Loaded k bs pool')
    (hb : Memory.wf 0#8 pool.bytes = true) (hnodup : pool.free.Nodup) (hk : bs.length ≤ 32 * k)
    (hroom : k ≤ pool.free.length) :
    pool'.body (pool.free.take k) bs.length = bs ∧ tailClear pool' bs.length (pool.free.take k) := by
  refine ⟨List.ext_getElem (Pool.body_length ..) fun i hi hi' => ?_, fun i hi hi' => ?_⟩
  · have hbyte := h.bytes hb hnodup i (by omega)
    simp only [Pool.body, List.getElem_map, List.getElem_range, hbyte]
    rw [List.getD_eq_getElem?_getD, List.getElem?_eq_getElem hi', Option.getD_some]
  · have hlen : (pool.free.take k).length = k := by rw [List.length_take]; omega
    have hsize : Config.pageSize = 32 := rfl
    rw [hlen, hsize] at hi'
    rw [h.bytes hb hnodup i hi', getD_of_length_le hi]

end

end Sys2Proof.Machine
end

section
/-! SUPPORT. The image in the flash: the layouts of header and entry, when they read back, and the load that chooses,
checks and installs. Then the statements about them. -/

namespace Sys2Proof.Machine

/-! ### Fields of two and four bytes -/

theorem fromBe_pair (x y : Byte) : fromBe [x, y] = 256 * x.toNat + y.toNat := by
  simp only [fromBe, List.foldl_cons, List.foldl_nil]
  omega

/-- Two bytes spell a 16-bit value exactly when they are the bytes of its field. -/
theorem ofNat_fromBe_pair_eq_iff (x y : Byte) (v : BitVec 16) :
    BitVec.ofNat 16 (fromBe [x, y]) = v ↔ [x, y] = be16 v := by
  constructor
  · rintro rfl
    have hx := x.isLt
    have hy := y.isLt
    rw [be16, List.cons_eq_cons, List.cons_eq_cons]
    refine ⟨?_, ?_, rfl⟩
    · apply BitVec.eq_of_toNat_eq
      rw [BitVec.extractLsb'_toNat, BitVec.toNat_ofNat, fromBe_pair, Nat.shiftRight_eq_div_pow]
      omega
    · apply BitVec.eq_of_toNat_eq
      rw [BitVec.extractLsb'_toNat, BitVec.toNat_ofNat, fromBe_pair, Nat.shiftRight_eq_div_pow]
      omega
  · intro h
    rw [h, fromBe_be16, BitVec.ofNat_toNat, BitVec.setWidth_eq]

theorem fieldAt_eq_of_drop {bs : List Byte} {offset size : Nat} {field : List Byte}
    (h : (bs.drop offset).take size = field) : fieldAt bs offset size = fromBe field := by
  rw [fieldAt, h]

/-! ### The image header (R143, R144) -/

theorem ImageHeader.fields_length (h : ImageHeader) : h.fields.length = 19 := rfl

theorem ImageHeader.bytes_length (h : ImageHeader) : h.bytes.length = 21 := rfl

/-- A header whose counts fit their fields reads back as itself. -/
theorem parseHeader_padUnit (h : ImageHeader) (hr : h.records < 65536) (hb : h.bodyBytes < 4294967296) :
    parseHeader (padUnit h.bytes) = some h := by
  obtain ⟨pad, hpad⟩ : ∃ pad, padUnit h.bytes = h.fields ++ (be16 (crc16 h.fields) ++ pad) :=
    ⟨_, by rw [padUnit, ImageHeader.bytes, List.append_assoc]⟩
  have hfields : h.fields = imageMagic ++ ([0x01#8] ++ (be32 h.sequence ++ (be32 h.gen ++ (natBe16 h.records
      ++ be32 (BitVec.ofNat 32 h.bodyBytes))))) := by
    simp only [ImageHeader.fields, List.append_assoc]
  have hcrc : fieldAt (padUnit h.bytes) 19 2 = (crc16 h.fields).toNat := by
    rw [hpad]
    exact fieldAt_be16 h.fields (crc16 h.fields) pad
  have htake : (padUnit h.bytes).take 19 = h.fields := by
    rw [hpad]
    exact List.take_left' h.fields_length
  have hmagic : (padUnit h.bytes).take 4 = imageMagic := rfl
  have hformat : fieldAt (padUnit h.bytes) 4 1 = 1 := rfl
  have hsequence : fieldAt (padUnit h.bytes) 5 4 = h.sequence.toNat := by
    rw [hpad, hfields]
    exact fieldAt_be32 (imageMagic ++ [0x01#8]) h.sequence _
  have hgen : fieldAt (padUnit h.bytes) 9 4 = h.gen.toNat := by
    rw [hpad, hfields]
    exact fieldAt_be32 (imageMagic ++ [0x01#8] ++ be32 h.sequence) h.gen _
  have hrecords : fieldAt (padUnit h.bytes) 13 2 = h.records := by
    rw [hpad, hfields]
    refine (fieldAt_be16 (imageMagic ++ [0x01#8] ++ be32 h.sequence ++ be32 h.gen) (BitVec.ofNat 16 h.records) _).trans ?_
    rw [BitVec.toNat_ofNat, Nat.mod_eq_of_lt hr]
  have hbody : fieldAt (padUnit h.bytes) 15 4 = h.bodyBytes := by
    rw [hpad, hfields]
    refine (fieldAt_be32 (imageMagic ++ [0x01#8] ++ be32 h.sequence ++ be32 h.gen ++ natBe16 h.records)
      (BitVec.ofNat 32 h.bodyBytes) _).trans ?_
    rw [BitVec.toNat_ofNat, Nat.mod_eq_of_lt hb]
  rw [parseHeader, if_pos ⟨hmagic, hformat, by rw [hcrc, htake]⟩, hsequence, hgen, hrecords, hbody]
  simp only [BitVec.ofNat_toNat, BitVec.setWidth_eq]

/-- A header unit is invalid exactly when its magic, its format or its CRC is wrong (R144). -/
theorem parseHeader_eq_none_iff {bs : List Byte} (hlen : bs.length = 256) : parseHeader bs = none
    ↔ ¬ (bs.take 4 = [0x45#8, 0x4A#8, 0x43#8, 0x52#8] ∧ bs[4]? = some 0x01#8
      ∧ (bs.drop 19).take 2 = be16 (crc16 (bs.take 19))) := by
  have hformat : fieldAt bs 4 1 = 1 ↔ bs[4]? = some 0x01#8 := by
    have hb : (bs.drop 4).take 1 = [bs[4]] := by
      rw [List.drop_eq_getElem_cons (by omega)]
      rfl
    rw [fieldAt_eq_of_drop hb, List.getElem?_eq_getElem (by omega), Option.some_inj, ← BitVec.toNat_inj]
    simp [fromBe]
  have hcrc : fieldAt bs 19 2 = (crc16 (bs.take 19)).toNat ↔ (bs.drop 19).take 2 = be16 (crc16 (bs.take 19)) := by
    have hb : (bs.drop 19).take 2 = [bs[19], bs[20]] := by
      rw [List.drop_eq_getElem_cons (by omega), List.drop_eq_getElem_cons (by omega)]
      rfl
    have hx := bs[19].isLt
    have hy := bs[20].isLt
    rw [fieldAt_eq_of_drop hb, hb, ← ofNat_fromBe_pair_eq_iff, ← BitVec.toNat_inj, BitVec.toNat_ofNat, fromBe_pair]
    omega
  unfold parseHeader
  rw [ite_eq_right_iff, hformat, hcrc]
  simp only [reduceCtorEq, imp_false]
  rfl

/-! ### Record entries (R142, R147) -/

theorem readBlock_append (d : Byte) (m : Memory) (a n k : Nat) :
    readBlock d m a (n + k) = readBlock d m a n ++ readBlock d m (a + n) k := by
  simp only [readBlock, List.range_add, List.map_append, List.map_map]
  refine congrArg _ (List.map_congr_left fun j _ => ?_)
  show cellRead d m (a + (n + j)) = cellRead d m (a + n + j)
  rw [Nat.add_assoc]

/-- What an entry read from a slot has passed, field by field (Table 7-4). -/
structure EntryRead (f : Flash) (i : ImageSlot) (offset : Nat) (e : LoadEntry) : Prop where
  room : offset + 8 + e.length ≤ 65536
  tag : e.tag = BitVec.ofNat 16 (fieldAt (f.bytesAt (i.base + offset) 8) 0 2)
  length : e.length = fieldAt (f.bytesAt (i.base + offset) 8) 4 2
  crc : e.crc = BitVec.ofNat 16 (fieldAt (f.bytesAt (i.base + offset) 8) 6 2)
  kind : Kind.ofCode (argByte (f.bytesAt (i.base + offset) 8) 2 >>> 4) = some e.kind
  persist : Persist.ofCode (argByte (f.bytesAt (i.base + offset) 8) 2 &&& 0x0F#8) = some e.attrs.persist
  writers : writersOfByte (argByte (f.bytesAt (i.base + offset) 8) 3) = some e.attrs.writers
  tagOk : recordTag e.tag = true
  counterLength : e.kind = .counter → e.length = 4
  blobLength : e.kind = .blob → e.length ≤ 2048
  body : e.body = f.bytesAt (i.base + offset + 8) e.length
  crcOk : crc16 e.body = e.crc

section
variable {f : Flash} {i : ImageSlot} {offset : Nat} {e : LoadEntry}

theorem EntryRead.of_readEntry (h : readEntry f i offset = some e) : EntryRead f i offset e := by
  simp only [readEntry] at h
  split at h
  · cases h
  · split at h
    · cases h
    next hroom =>
      split at h
      next kind persist writers hkind hpersist hwriters =>
        obtain ⟨hok, h⟩ := (Option.ite_none_right_eq_some ..).mp h
        obtain ⟨hcrc, h⟩ := (Option.ite_none_right_eq_some ..).mp h
        cases h
        rw [Bool.and_eq_true] at hok
        obtain ⟨htag, hlen⟩ := hok
        refine ⟨Nat.not_lt.mp hroom, rfl, rfl, rfl, hkind, hpersist, hwriters, htag, ?_, ?_, rfl, hcrc⟩
        · rintro rfl
          exact beq_iff_eq.mp hlen
        · rintro rfl
          exact of_decide_eq_true hlen
      next => cases h

theorem EntryRead.readEntry_eq (h : EntryRead f i offset e) : readEntry f i offset = some e := by
  obtain ⟨hroom, htag, hlength, hcrc, hkind, hpersist, hwriters, htagOk, hcounter, hblob, hbody, hcrcOk⟩ := h
  obtain ⟨tag, kind, ⟨writers, persist⟩, length, crc, body⟩ := e
  dsimp only at *
  subst hbody
  have hsize : Config.imageSlotSize = 65536 := rfl
  have hhead : ¬ Config.imageSlotSize < offset + 8 := by omega
  have hwhole : ¬ Config.imageSlotSize < offset + 8 + length := by omega
  have hlengthOk : (match kind with
      | .counter => length == 4
      | .blob => decide (length ≤ Config.maxBody)) = true := by
    cases kind with
    | blob => exact decide_eq_true (hblob rfl)
    | counter => exact beq_iff_eq.mpr (hcounter rfl)
  simp only [readEntry, hhead, if_false, ← hlength, hwhole, hkind, hpersist, hwriters, ← htag, htagOk, ← hcrc, hcrcOk]
  cases kind with
  | blob =>
    have hok : decide (length ≤ Config.maxBody) = true := hlengthOk
    simp only [hok, Bool.and_self, if_true]
  | counter =>
    have hok : (length == 4) = true := hlengthOk
    simp only [hok, Bool.and_self, if_true]

theorem readEntry_eq_none_iff : readEntry f i offset = none ↔ ¬ ∃ e, EntryRead f i offset e := by
  rw [← Option.not_isSome_iff_eq_none, Option.isSome_iff_exists, not_iff_not]
  exact ⟨fun ⟨e, h⟩ => ⟨e, .of_readEntry h⟩, fun ⟨e, h⟩ => ⟨e, h.readEntry_eq⟩⟩

theorem EntryRead.body_length (h : EntryRead f i offset e) : e.body.length = e.length := by
  rw [h.body]
  exact readBlock_length ..

end

/-! ### The entry of a saved record reads back -/

theorem Kind.ofCode_attributesByte (k : Kind) (q : Persist) : Kind.ofCode (attributesByte k q >>> 4) = some k := by
  cases k <;> cases q <;> decide

theorem Persist.ofCode_attributesByte (k : Kind) (q : Persist) :
    Persist.ofCode (attributesByte k q &&& 0x0F#8) = some q := by
  cases k <;> cases q <;> decide

theorem writersOfByte_byteOfWriters (w : Writers) : writersOfByte (byteOfWriters w) = some w := by
  revert w
  decide

/-- The head of an entry: the fields that reading finds in it. -/
theorem entryHead_fields (tag : Tag) (kind : Kind) (attrs : Attrs) {length : Nat} (hl : length < 65536) (crc : Crc) :
    fieldAt (entryHead tag kind attrs length crc) 0 2 = tag.toNat
      ∧ argByte (entryHead tag kind attrs length crc) 2 = attributesByte kind attrs.persist
      ∧ argByte (entryHead tag kind attrs length crc) 3 = byteOfWriters attrs.writers
      ∧ fieldAt (entryHead tag kind attrs length crc) 4 2 = length
      ∧ fieldAt (entryHead tag kind attrs length crc) 6 2 = crc.toNat := by
  have hassoc : entryHead tag kind attrs length crc = be16 tag ++ ([attributesByte kind attrs.persist,
      byteOfWriters attrs.writers] ++ (natBe16 length ++ be16 crc)) := by
    simp only [entryHead, List.append_assoc]
  refine ⟨?_, rfl, rfl, ?_, ?_⟩
  · rw [hassoc]
    exact fieldAt_be16 [] tag _
  · refine (fieldAt_be16 (be16 tag ++ [attributesByte kind attrs.persist, byteOfWriters attrs.writers])
      (BitVec.ofNat 16 length) (be16 crc)).trans ?_
    rw [BitVec.toNat_ofNat, Nat.mod_eq_of_lt hl]
  · exact fieldAt_be16 (be16 tag ++ [attributesByte kind attrs.persist, byteOfWriters attrs.writers] ++ natBe16 length)
      crc []

theorem length_of_counter {v : Version} (h : v.kind? = some .counter) : v.length = 4 := by
  obtain ⟨gen, content⟩ := v
  cases content with
  | counter a x crc => rfl
  | blob | tombstone => cases h

/-- Settles O58: a header by its fields, an entry by its head and its body. -/
theorem imageLayoutsReadBack : Obligations.ImageLayoutsReadBack := by
  refine ⟨parseHeader_padUnit, fun f i offset tag v pool kind attrs h0 h1 hkind hattrs hlen hcrc hroom hbytes => ?_,
    fun h => rfl, fun pool tag gen writers persist => ⟨fun n pages crc => ?_, fun x crc => ?_⟩⟩
  · obtain ⟨kind', hkind', hhead⟩ := head?_of_attrs hattrs tag
    obtain rfl : kind = kind' := Option.some_inj.mp (hkind.symm.trans hkind')
    have hsplit : f.bytesAt (i.base + offset) 8 ++ f.bytesAt (i.base + offset + 8) v.length
        = entryHead tag kind attrs v.length v.crc ++ v.body pool := by
      rw [imageEntry] at hbytes
      simp only [hhead] at hbytes
      exact (readBlock_append ..).symm.trans hbytes
    obtain ⟨hhead', hbody⟩ := List.append_inj hsplit ((readBlock_length ..).trans (entryHead_length ..).symm)
    obtain ⟨ftag, fattr, fwriters, flength, fcrc⟩ := entryHead_fields tag kind attrs (length := v.length) (by omega) v.crc
    refine EntryRead.readEntry_eq ⟨hroom, ?_, ?_, ?_, ?_, ?_, ?_, recordTag_of_ne h0 h1, ?_, fun _ => hlen, hbody.symm, hcrc⟩
    · rw [hhead', ftag, BitVec.ofNat_toNat, BitVec.setWidth_eq]
    · rw [hhead', flength]
    · rw [hhead', fcrc, BitVec.ofNat_toNat, BitVec.setWidth_eq]
    · rw [hhead', fattr, Kind.ofCode_attributesByte]
    · rw [hhead', fattr, Persist.ofCode_attributesByte]
    · rw [hhead', fwriters, writersOfByte_byteOfWriters]
    · rintro rfl
      exact length_of_counter hkind
  · cases persist <;> rfl
  · cases persist <;> rfl

end Sys2Proof.Machine
end

section
/-! SUPPORT. The load, row by row: which slot the headers choose, what one entry's check does, what one entry's
installation takes; then the statements about them. -/

namespace Sys2Proof.Machine

/-! ### The headers (R144, R146) -/

section
variable {f : Flash} {h0 h1 : ImageHeader}

theorem slotsToTry_of_none (a : slotHeader f .slot0 = none) (b : slotHeader f .slot1 = none) : slotsToTry f = [] := by
  simp only [slotsToTry, a, b]

theorem slotsToTry_of_first (a : slotHeader f .slot0 = some h0) (b : slotHeader f .slot1 = none) :
    slotsToTry f = [(.slot0, h0)] := by
  simp only [slotsToTry, a, b]

theorem slotsToTry_of_second (a : slotHeader f .slot0 = none) (b : slotHeader f .slot1 = some h1) :
    slotsToTry f = [(.slot1, h1)] := by
  simp only [slotsToTry, a, b]

theorem slotsToTry_of_both (a : slotHeader f .slot0 = some h0) (b : slotHeader f .slot1 = some h1) :
    slotsToTry f = if h0.sequence < h1.sequence then [(.slot1, h1), (.slot0, h0)] else [(.slot0, h0), (.slot1, h1)] := by
  simp only [slotsToTry, a, b]

end

section
variable {s : State}

theorem headersRead_of_none (hl : s.image.loader = .header1) (hop : s.image.op = .loadRead) (h : slotsToTry s.flash = []) :
    headersRead s = endLoad (.empty .noImage) none 0#32 s := by
  simp only [headersRead, hl, hop, h]

theorem headersRead_of_some {x : ImageSlot × ImageHeader} {rest : List (ImageSlot × ImageHeader)}
    (hl : s.image.loader = .header1) (hop : s.image.op = .loadRead) (h : slotsToTry s.flash = x :: rest) :
    headersRead s = trySlots s (x :: rest) := by
  simp only [headersRead, hl, hop, h]

/-! ### The check of one entry (R147) -/

variable {c : LoadCursor} {e : LoadEntry}

theorem entryChecked_of_op (hl : s.image.loader = .checking c) (hop : s.image.op = .loadRead ∨ s.image.op = .none) :
    entryChecked s = checkEntry c s := by
  rcases hop with hop | hop <;> simp only [entryChecked, hl, hop]

theorem checkEntry_of_refused (h : readEntry s.flash c.slot c.offset = none) : checkEntry c s = trySlots s c.others := by
  simp only [checkEntry, h]

section
variable (h : readEntry s.flash c.slot c.offset = some e)
include h

theorem checkEntry_of_disorder (ht : tagRises c.lastTag e.tag = false) : checkEntry c s = trySlots s c.others := by
  simp [checkEntry, h, ht]

variable (ht : tagRises c.lastTag e.tag = true)
include ht

theorem checkEntry_of_more (hmore : c.index + 1 < c.header.records) : checkEntry c s = checkAt (c.pass e) s := by
  have hlt : (c.pass e).index < c.header.records := hmore
  simp only [checkEntry, h, ht, if_true, hlt]

theorem checkEntry_of_last (hlast : c.header.records ≤ c.index + 1) : checkEntry c s
    = if c.sum + e.length = c.header.bodyBytes then installNext (firstEntry c.slot c.header c.others) s
      else trySlots s c.others := by
  have hge : ¬ (c.pass e).index < c.header.records := Nat.not_lt.mpr hlast
  simp only [checkEntry, h, ht, if_true, hge, if_false]
  rfl

end

theorem tagRises_iff (last : Option Tag) (tag : Tag) : tagRises last tag = true ↔ ∀ t, last = some t → t < tag := by
  cases last <;> simp [tagRises]

end

/-! ### The grounds of Table 7-4 -/

section
variable {f : Flash} {i : ImageSlot} {offset : Nat} {b : Nat → Byte}

/-- The head of an entry, byte by byte. -/
theorem bytesAt_head (f : Flash) (a : Nat) : f.bytesAt a 8 = (List.range 8).map (fun k => cellRead erasedByte f.mem (a + k)) :=
  rfl

theorem range_eight_map (b : Nat → Byte) : (List.range 8).map b = [b 0, b 1, b 2, b 3, b 4, b 5, b 6, b 7] := rfl

/-- An entry is refused exactly when one of the grounds of Table 7-4 holds of the bytes at its place. -/
theorem readEntry_refused_iff (hb : ∀ k, b k = cellRead erasedByte f.mem (i.base + offset + k)) {length : Nat}
    (hlength : length = 256 * (b 4).toNat + (b 5).toNat) {body : List Byte}
    (hbody : body = (List.range length).map (fun k => b (8 + k))) : readEntry f i offset = none ↔
      65536 < offset + 8 ∨ 65536 < offset + 8 + length
      ∨ (b 0 = 0x00#8 ∧ b 1 = 0x00#8) ∨ (b 0 = 0xFF#8 ∧ b 1 = 0xFF#8)
      ∨ (b 2 >>> 4 ≠ 0x01#8 ∧ b 2 >>> 4 ≠ 0x02#8) ∨ (b 2 &&& 0x0F#8 ≠ 0x01#8 ∧ b 2 &&& 0x0F#8 ≠ 0x02#8)
      ∨ b 3 &&& 0xF0#8 ≠ 0x00#8
      ∨ (b 2 >>> 4 = 0x02#8 ∧ length ≠ 4) ∨ (b 2 >>> 4 = 0x01#8 ∧ 2048 < length)
      ∨ be16 (crc16 body) ≠ [b 6, b 7] := by
  have hhead : f.bytesAt (i.base + offset) 8 = [b 0, b 1, b 2, b 3, b 4, b 5, b 6, b 7] := by
    rw [bytesAt_head, ← range_eight_map b]
    exact List.map_congr_left fun k _ => (hb k).symm
  have htag : fieldAt [b 0, b 1, b 2, b 3, b 4, b 5, b 6, b 7] 0 2 = fromBe [b 0, b 1] := rfl
  have hlen : fieldAt [b 0, b 1, b 2, b 3, b 4, b 5, b 6, b 7] 4 2 = length := by
    rw [hlength]
    exact fromBe_pair (b 4) (b 5)
  have hcrc : fieldAt [b 0, b 1, b 2, b 3, b 4, b 5, b 6, b 7] 6 2 = fromBe [b 6, b 7] := rfl
  have hattr : argByte [b 0, b 1, b 2, b 3, b 4, b 5, b 6, b 7] 2 = b 2 := rfl
  have hwriters : argByte [b 0, b 1, b 2, b 3, b 4, b 5, b 6, b 7] 3 = b 3 := rfl
  have hbytes : f.bytesAt (i.base + offset + 8) length = body := by
    rw [hbody]
    refine List.map_congr_left fun k _ => ?_
    rw [hb, ← Nat.add_assoc]
  have hzero : be16 0x0000#16 = [0x00#8, 0x00#8] := by decide
  have hall : be16 0xFFFF#16 = [0xFF#8, 0xFF#8] := by decide
  have htagOk : recordTag (BitVec.ofNat 16 (fromBe [b 0, b 1])) = true
      ↔ ¬ (b 0 = 0x00#8 ∧ b 1 = 0x00#8) ∧ ¬ (b 0 = 0xFF#8 ∧ b 1 = 0xFF#8) := by
    simp only [recordTag_iff, ne_eq, ofNat_fromBe_pair_eq_iff, hzero, hall, List.cons_eq_cons, and_true]
  rw [readEntry_eq_none_iff]
  constructor
  · intro hnone
    by_contra hground
    simp only [not_or, not_and, Decidable.not_not, Nat.not_lt] at hground
    obtain ⟨hroom, hwhole, hnzero, hnall, hkind, hpersist, hw, hcounter, hblob, hsum⟩ := hground
    obtain ⟨kind, hk⟩ := Option.isSome_iff_exists.mp ((Kind.ofCode_isSome_iff (b 2 >>> 4)).mpr (or_iff_not_imp_left.mpr hkind))
    obtain ⟨persist, hp⟩ := Option.isSome_iff_exists.mp
      ((Persist.ofCode_isSome_iff (b 2 &&& 0x0F#8)).mpr (or_iff_not_imp_left.mpr hpersist))
    refine hnone ⟨⟨BitVec.ofNat 16 (fromBe [b 0, b 1]), kind, ⟨(b 3).setWidth 4, persist⟩, length,
      BitVec.ofNat 16 (fromBe [b 6, b 7]), body⟩, hwhole, ?_, ?_, ?_, ?_, ?_, ?_, ?_, ?_, ?_, hbytes.symm, ?_⟩
    · rw [hhead, htag]
    · rw [hhead, hlen]
    · rw [hhead, hcrc]
    · rw [hhead, hattr, hk]
    · rw [hhead, hattr, hp]
    · rw [hhead, hwriters]
      exact if_pos hw
    · exact htagOk.mpr ⟨fun h => hnzero h.1 h.2, fun h => hnall h.1 h.2⟩
    · rintro rfl
      refine hcounter ?_
      unfold Kind.ofCode at hk
      split at hk
      · cases hk
      · split at hk
        next h2 => exact h2
        next => cases hk
    · rintro rfl
      refine hblob ?_
      unfold Kind.ofCode at hk
      split at hk
      next h1 => exact h1
      next => split at hk <;> cases hk
    · exact ((ofNat_fromBe_pair_eq_iff _ _ _).mpr hsum.symm).symm
  · rintro hground ⟨e, he⟩
    have hl : e.length = length := by rw [he.length, hhead, hlen]
    have hroom := he.room
    have hk := he.kind
    have hp := he.persist
    have hw := he.writers
    have ht := he.tagOk
    rw [he.tag, hhead, htag, htagOk] at ht
    rw [hhead, hattr] at hk hp
    rw [hhead, hwriters] at hw
    have hks := (Kind.ofCode_isSome_iff (b 2 >>> 4)).mp (Option.isSome_of_eq_some hk)
    have hps := (Persist.ofCode_isSome_iff (b 2 &&& 0x0F#8)).mp (Option.isSome_of_eq_some hp)
    rcases hground with h | h | h | h | ⟨ha, hc⟩ | ⟨ha, hc⟩ | h | ⟨h2, hc⟩ | ⟨h1, hc⟩ | h
    · omega
    · omega
    · exact ht.1 h
    · exact ht.2 h
    · exact hks.elim ha hc
    · exact hps.elim ha hc
    · rw [writersOfByte, if_neg h] at hw
      cases hw
    · have hkind : e.kind = .counter := by
        rw [h2] at hk
        exact (Option.some_inj.mp hk).symm
      exact hc (hl ▸ he.counterLength hkind)
    · have hkind : e.kind = .blob := by
        rw [h1] at hk
        exact (Option.some_inj.mp hk).symm
      have := he.blobLength hkind
      omega
    · have hsum := he.crcOk
      rw [he.body, hl, hbytes, he.crc, hhead, hcrc] at hsum
      exact h ((ofNat_fromBe_pair_eq_iff _ _ _).mp hsum.symm).symm

end

/-- Settles O59: the choice of the slot, the check of one entry, and the grounds of refusal. -/
theorem loadChoosesAndChecksASlot : Obligations.LoadChoosesAndChecksASlot := by
  refine ⟨fun s hl hop => ?_, fun s c hl hop => ?_, fun bs hlen => parseHeader_eq_none_iff hlen,
    fun f i offset => readEntry_refused_iff (fun _ => rfl) rfl rfl⟩
  · intro header tries
    have htries : ∀ x rest, slotsToTry s.flash = x :: rest → tries (x :: rest) := fun x rest h =>
      ⟨trySlots s (x :: rest), congrArg Host.Outcome.next (headersRead_of_some hl hop h), trySlots_tried s _⟩
    refine ⟨fun a b => ⟨_, congrArg Host.Outcome.next (headersRead_of_none hl hop (slotsToTry_of_none a b)),
        endLoad_ended _ _ _ s⟩, fun h a b => htries _ _ (slotsToTry_of_first a b),
      fun h a b => htries _ _ (slotsToTry_of_second a b), fun h0 h1 a b => ⟨fun hle => htries _ _ ?_,
        fun hlt => htries _ _ ((slotsToTry_of_both a b).trans (if_pos hlt))⟩⟩
    exact (slotsToTry_of_both a b).trans (if_neg (BitVec.not_lt.mpr hle))
  · intro entry rejects
    have hrejects : checkEntry c s = trySlots s c.others → rejects := fun h =>
      ⟨trySlots s c.others, congrArg Host.Outcome.next ((entryChecked_of_op hl hop).trans h), trySlots_tried s _⟩
    refine ⟨fun he => hrejects (checkEntry_of_refused he), fun e he => ⟨?_, fun hrises => ?_⟩⟩
    · rintro ⟨last, hlast, hle⟩
      refine hrejects (checkEntry_of_disorder he ?_)
      rw [← Bool.not_eq_true, tagRises_iff]
      exact fun h => BitVec.not_lt.mpr hle (h last hlast)
    · have ht := (tagRises_iff c.lastTag e.tag).mpr hrises
      refine ⟨fun hmore => congrArg Host.Outcome.next ?_, fun hlast hsum => congrArg Host.Outcome.next ?_,
        fun hlast hsum => hrejects ((checkEntry_of_last he ht hlast).trans (if_neg hsum))⟩
      · rw [entryChecked_of_op hl hop, checkEntry_of_more he ht hmore]
        rfl
      · rw [entryChecked_of_op hl hop, checkEntry_of_last he ht hlast, if_pos hsum]
        rfl

/-! ### The installation of one entry (R148, R149) -/

section
variable {dir : List DirSlot} {tag : Tag}

/-- The installation of a version on a chain, whatever the order of the directory. -/
theorem chainOf_install_of_nil (h : chainOf dir tag = []) (v : Version) : chainOf (install dir tag v) tag = [v] := by
  induction dir with
  | nil => exact chainOf_cons_self ⟨tag, [v]⟩ []
  | cons d rest ih =>
    rw [install]
    split
    next => exact chainOf_cons_self ⟨tag, [v]⟩ _
    next =>
      split
      next heq =>
        subst heq
        rw [chainOf_cons_self] at h
        exact (chainOf_cons_self { d with chain := v :: d.chain } rest).trans (by rw [h])
      next hne =>
        have hd : d.tag ≠ tag := fun h => hne h.symm
        rw [chainOf_cons_of_ne hd] at h ⊢
        exact ih h

theorem chainOf_install_of_ne {tag' : Tag} (h : tag' ≠ tag) (v : Version) :
    chainOf (install dir tag v) tag' = chainOf dir tag' := by
  induction dir with
  | nil => exact chainOf_cons_of_ne (d := ⟨tag, [v]⟩) (Ne.symm h) []
  | cons d rest ih =>
    rw [install]
    split
    next => exact chainOf_cons_of_ne (d := ⟨tag, [v]⟩) (Ne.symm h) _
    next =>
      split
      next heq =>
        subst heq
        rw [chainOf_cons_of_ne (d := { d with chain := v :: d.chain }) (Ne.symm h), chainOf_cons_of_ne (Ne.symm h)]
      next =>
        by_cases hd : d.tag = tag'
        · subst hd
          rw [chainOf_cons_self, chainOf_cons_self]
        · rw [chainOf_cons_of_ne hd, chainOf_cons_of_ne hd, ih]

end

section
variable {s : State} {c : LoadCursor} {e : LoadEntry}

theorem installEntry_of_no_room (h : ¬ (0 < freeSlots s ∧ 0 < freeEntries s)) : installEntry e s = none := by
  have hno : (freeSlots s = 0 || freeEntries s = 0 || !(chainOf s.directory e.tag).isEmpty) = true := by
    simp only [Bool.or_eq_true, decide_eq_true_eq]
    omega
  rw [installEntry, if_pos hno]

section
variable (hroom : 0 < freeSlots s ∧ 0 < freeEntries s) (hchain : chainOf s.directory e.tag = [])
include hroom hchain

theorem installEntry_guard : ¬ (freeSlots s = 0 || freeEntries s = 0 || !(chainOf s.directory e.tag).isEmpty) = true := by
  simp only [Bool.or_eq_true, decide_eq_true_eq, hchain, List.isEmpty_nil, Bool.not_true, Bool.false_eq_true, or_false]
  omega

theorem installEntry_of_no_content (h : loadContent e s.pool = none) : installEntry e s = none := by
  rw [installEntry, if_neg (installEntry_guard hroom hchain), h]

theorem installEntry_of_content {content : Content} {pool : Pool} (h : loadContent e s.pool = some (content, pool)) :
    installEntry e s = some { s with directory := install s.directory e.tag ⟨1#32, content⟩, pool := pool } := by
  rw [installEntry, if_neg (installEntry_guard hroom hchain), h]

end

variable (hl : s.image.loader = .installing c) (hop : s.image.op = .loadRead)
  (he : readEntry s.flash c.slot c.offset = some e)
include hl hop he

theorem entryInstalled_of_refused (h : installEntry e s = none) :
    entryInstalled s = endLoadWith .stoppedPartial c s := by
  simp only [entryInstalled, hl, hop, installAt, he, h]

theorem entryInstalled_of_more {t : State} (h : installEntry e s = some t) (hmore : c.index + 1 < c.header.records) :
    entryInstalled s = installNext (c.pass e) t := by
  have hlt : (c.pass e).index < c.header.records := hmore
  simp only [entryInstalled, hl, hop, installAt, he, h, hlt, if_true]

theorem entryInstalled_of_last {t : State} (h : installEntry e s = some t) (hlast : c.header.records ≤ c.index + 1) :
    entryInstalled s = endLoadWith .loaded c t := by
  have hge : ¬ (c.pass e).index < c.header.records := Nat.not_lt.mpr hlast
  simp only [entryInstalled, hl, hop, installAt, he, h, hge, if_false]

end

theorem loadContent_of_counter {e : LoadEntry} (h : e.kind = .counter) (pool : Pool) :
    loadContent e pool = some (.counter e.attrs (BitVec.ofNat 32 (fromBe e.body)) e.crc, pool) := by
  simp only [loadContent, h]

theorem loadContent_of_short {e : LoadEntry} (h : e.kind = .blob) {pool : Pool}
    (hp : loadPages (pagesFor e.length) e.body pool = none) : loadContent e pool = none := by
  simp only [loadContent, h, hp]

theorem loadContent_of_pages {e : LoadEntry} (h : e.kind = .blob) {pool pool' : Pool} {pages : List PageNo}
    (hp : loadPages (pagesFor e.length) e.body pool = some (pages, pool')) :
    loadContent e pool = some (.blob e.attrs e.length pages e.crc, pool') := by
  simp only [loadContent, h, hp]

/-- Settles O60: the entry's room, its pages, and where the pass goes on. -/
theorem installPassInstallsOrStops : Obligations.InstallPassInstallsOrStops := by
  intro s c e hl hop he hchain room ends stops installs
  have hstops : installEntry e s = none → stops := by
    intro h
    have hended := endLoad_ended .stoppedPartial (some c.slot) c.header.sequence s
    exact ⟨_, congrArg Host.Outcome.next (entryInstalled_of_refused hl hop he h), ⟨hended.image, hended.notes⟩, hended.rest⟩
  have hinstalls : ∀ content pool, room → loadContent e s.pool = some (content, pool) → installs content pool := by
    intro content pool hroom hcontent
    have hentry := installEntry_of_content hroom hchain hcontent
    have hown := chainOf_install_of_nil hchain ⟨1#32, content⟩
    have hother : ∀ tag, tag ≠ e.tag →
        chainOf (install s.directory e.tag ⟨1#32, content⟩) tag = chainOf s.directory tag :=
      fun tag htag => chainOf_install_of_ne htag _
    by_cases hmore : c.index + 1 < c.header.records
    · exact ⟨_, congrArg Host.Outcome.next (entryInstalled_of_more hl hop he hentry hmore), hown, hother, rfl,
        fun _ => ⟨rfl, rfl⟩, fun hlast => absurd hmore (Nat.not_lt.mpr hlast), rfl⟩
    · have hended := endLoad_ended .loaded (some c.slot) c.header.sequence
        { s with directory := install s.directory e.tag ⟨1#32, content⟩, pool := pool }
      exact ⟨_, congrArg Host.Outcome.next (entryInstalled_of_last hl hop he hentry (Nat.not_lt.mp hmore)), hown, hother, rfl,
        fun h => absurd h hmore, fun _ => ⟨hended.image, hended.notes⟩, rfl⟩
  refine ⟨fun hno => hstops (installEntry_of_no_room hno),
    fun hroom hk => hinstalls _ _ hroom (loadContent_of_counter hk s.pool), fun hroom hk hshort => hstops ?_,
    fun hroom hk hpages => ?_⟩
  · exact installEntry_of_no_content hroom hchain (loadContent_of_short hk (loadPages_of_short hshort))
  · obtain ⟨pool', hload, hloaded⟩ := loadPages_of_room (pool := s.pool) (bs := e.body) (k := pagesFor e.length) hpages
    have hlen : e.body.length = e.length := (EntryRead.of_readEntry he).body_length
    have hcount : pagesFor e.length = (e.length + 31) / 32 := rfl
    refine ⟨pool', hloaded.free, hloaded.stagedOwned, hloaded.refs, fun hb hnodup => ?_,
      hinstalls _ _ hroom (loadContent_of_pages hk hload)⟩
    obtain ⟨hbody, htail⟩ := hloaded.body_and_tail hb hnodup (by omega) hpages
    rw [hlen] at hbody htail
    exact ⟨hbody, htail, fun n hn => Pool.page_congr fun j hj => hloaded.others hb n hn j hj⟩

end Sys2Proof.Machine
end

section
/-! SUPPORT. Retirement: what a check leaves of the directory, the pool and the engine, the windows of a chain that
some generation sees, and the check of a snapshot release by them. The statement about release. -/

namespace Sys2Proof.Machine

/-! ### What a retirement run leaves, whatever its check -/

section
variable (check : DirSlot → List Version × List Version) (s : State)

theorem retireBy_directory : (retireBy check s).directory
    = s.directory.filterMap (fun d => if (check d).1.isEmpty then none else some ⟨d.tag, (check d).1⟩) := by
  simp only [retireBy, List.filterMap_map]
  rfl

theorem retireBy_pool :
    (retireBy check s).pool = s.pool.loseAll (s.directory.flatMap (fun d => (check d).2.flatMap Version.pages)) := by
  simp only [retireBy, List.flatMap_map]

theorem retireBy_engine : (retireBy check s).engine = s.engine.passSlots
    (s.directory.countP (fun d => (check d).1.isEmpty && decide (d.tag ∈ createdInCommit s))) := by
  simp only [retireBy, List.countP_map]
  rfl

variable {check s}

theorem retireBy_tags_sublist :
    ((retireBy check s).directory.map DirSlot.tag).Sublist (s.directory.map DirSlot.tag) := by
  rw [retireBy_directory]
  induction s.directory with
  | nil => exact List.Sublist.slnil
  | cons d rest ih =>
    rw [List.filterMap_cons]
    split
    next => exact ih.cons _
    next x hx =>
      split at hx
      · cases hx
      · cases hx
        exact ih.cons_cons _

theorem mem_retireBy_directory {d' : DirSlot} : d' ∈ (retireBy check s).directory
    ↔ ∃ d ∈ s.directory, (check d).1 ≠ [] ∧ d' = ⟨d.tag, (check d).1⟩ := by
  simp only [retireBy_directory, List.mem_filterMap, Option.ite_none_left_eq_some, Option.some.injEq, List.isEmpty_iff,
    eq_comm (a := d'), ne_eq]

variable (hdir : (s.directory.map DirSlot.tag).Pairwise (· < ·))
include hdir

theorem retireBy_tagsRise : ((retireBy check s).directory.map DirSlot.tag).Pairwise (· < ·) :=
  hdir.sublist retireBy_tags_sublist

/-- A chain after the run is the chain that its check keeps. -/
theorem chainOf_retireBy {d : DirSlot} (hd : d ∈ s.directory) :
    chainOf (retireBy check s).directory d.tag = (check d).1 := by
  by_cases hk : (check d).1 = []
  · rw [hk]
    refine chainOf_of_not_mem fun d' hd' htag => ?_
    obtain ⟨x, hx, hne, rfl⟩ := mem_retireBy_directory.mp hd'
    exact hne (slot_unique hdir hx hd htag ▸ hk)
  · exact chainOf_of_mem (retireBy_tagsRise hdir) (mem_retireBy_directory.mpr ⟨d, hd, hk, rfl⟩)

end

theorem chainOf_retireBy_of_not_mem {check : DirSlot → List Version × List Version} {s : State} {tag : Tag}
    (h : ∀ d ∈ s.directory, d.tag ≠ tag) : chainOf (retireBy check s).directory tag = [] := by
  refine chainOf_of_not_mem fun d' hd' => ?_
  obtain ⟨d, hd, -, rfl⟩ := mem_retireBy_directory.mp hd'
  exact h d hd

/-! ### Windows -/

/-- Some generation lies in the window of the second version of a pair, which the first one closes (R19). -/
def windowSeen (gens : List Gen) (x : Version × Version) : Bool :=
  gens.any (fun g => decide (x.2.gen ≤ g ∧ g < x.1.gen))

/-- The versions behind the newest of a chain whose window is seen, newest first. -/
def keptBehind (gens : List Gen) (chain : List Version) : List Version :=
  ((chain.zip chain.tail).filter (windowSeen gens)).map Prod.snd

/-- The versions behind the newest of a chain whose window is not seen, newest first. -/
def goneBehind (gens : List Gen) (chain : List Version) : List Version :=
  ((chain.zip chain.tail).filter (fun x => !windowSeen gens x)).map Prod.snd

theorem windowSeen_iff {gens : List Gen} {newer v : Version} :
    windowSeen gens (newer, v) = true ↔ ∃ g ∈ gens, v.gen ≤ g ∧ g < newer.gen := by
  simp only [windowSeen, List.any_eq_true, decide_eq_true_eq]

theorem retained_eq (gens : List Gen) (newer v : Version) : retained gens v.gen newer.gen = windowSeen gens (newer, v) := by
  simp only [retained, windowSeen, Bool.decide_and]

theorem keptBehind_cons (gens : List Gen) (newer v : Version) (older : List Version) : keptBehind gens (newer :: v :: older)
    = if windowSeen gens (newer, v) then v :: keptBehind gens (v :: older) else keptBehind gens (v :: older) := by
  simp only [keptBehind, List.tail_cons, List.zip_cons_cons, List.filter_cons]
  split <;> rfl

theorem goneBehind_cons (gens : List Gen) (newer v : Version) (older : List Version) : goneBehind gens (newer :: v :: older)
    = if windowSeen gens (newer, v) then goneBehind gens (v :: older) else v :: goneBehind gens (v :: older) := by
  simp only [goneBehind, List.tail_cons, List.zip_cons_cons, List.filter_cons]
  cases windowSeen gens (newer, v) <;> rfl

/-- The sweep of a chain behind its newest version: the seen versions, and the others in the order of R20. -/
theorem sweepOlder_eq (gens : List Gen) (newer : Version) (older : List Version) : sweepOlder gens newer.gen older
    = (keptBehind gens (newer :: older), (goneBehind gens (newer :: older)).reverse) := by
  induction older generalizing newer with
  | nil => rfl
  | cons v older ih =>
    simp only [sweepOlder, ih v, retained_eq, keptBehind_cons, goneBehind_cons]
    split
    · rfl
    · simp only [List.reverse_cons]

/-! ### The lone tombstone -/

theorem pages_of_isTombstone {v : Version} (h : v.isTombstone = true) : v.pages = [] := by
  unfold Version.isTombstone at h
  unfold Version.pages
  split at h
  next hc => rw [hc]
  all_goals cases h

/-- Retiring a lone tombstone takes the only version left, and no page. -/
theorem retireLoneTombstone_eq (v : Version) (older gone : List Version) : retireLoneTombstone (v :: older, gone)
    = if older = [] ∧ v.isTombstone = true then ([], gone ++ [v]) else (v :: older, gone) := by
  cases older with
  | nil => simp [retireLoneTombstone]
  | cons w older => simp [retireLoneTombstone]

theorem retireLoneTombstone_pages (v : Version) (older gone : List Version) :
    (retireLoneTombstone (v :: older, gone)).2.flatMap Version.pages = gone.flatMap Version.pages := by
  rw [retireLoneTombstone_eq]
  split
  next h => simp [pages_of_isTombstone h.2]
  next => rfl

/-! ### The check of a release -/

theorem releaseCheck_eq (gens : List Gen) {d : DirSlot} {newest : Version} {older : List Version}
    (hd : d.chain = newest :: older) : releaseCheck gens d
      = retireLoneTombstone (newest :: keptBehind gens d.chain, (goneBehind gens d.chain).reverse) := by
  simp only [releaseCheck, hd, sweepOlder_eq]

theorem releaseCheck_kept (gens : List Gen) {d : DirSlot} {newest : Version} {older : List Version}
    (hd : d.chain = newest :: older) : (releaseCheck gens d).1
      = if keptBehind gens d.chain = [] ∧ newest.isTombstone = true then [] else newest :: keptBehind gens d.chain := by
  rw [releaseCheck_eq gens hd, retireLoneTombstone_eq]
  split <;> rfl

theorem releaseCheck_pages (gens : List Gen) (d : DirSlot) :
    (releaseCheck gens d).2.flatMap Version.pages = (goneBehind gens d.chain).reverse.flatMap Version.pages := by
  cases hd : d.chain with
  | nil => simp [releaseCheck, hd, goneBehind]
  | cons newest older => rw [releaseCheck_eq gens hd, retireLoneTombstone_pages, hd]

theorem retireOnRelease_pool (s : State) : (retireOnRelease s).pool
    = s.pool.loseAll (s.directory.flatMap (fun d => (goneBehind (holdingGens s) d.chain).reverse.flatMap Version.pages)) := by
  simp only [retireOnRelease, retireBy_pool, releaseCheck_pages]

theorem countP_retireOnRelease {s : State} (hdir : (s.directory.map DirSlot.tag).Pairwise (· < ·)) :
    s.directory.countP (fun d => (releaseCheck (holdingGens s) d).1.isEmpty && decide (d.tag ∈ createdInCommit s))
      = s.directory.countP (fun d => (chainOf (retireOnRelease s).directory d.tag).isEmpty
          && decide (d.tag ∈ createdInCommit s)) :=
  List.countP_congr fun d hd => by rw [retireOnRelease, chainOf_retireBy hdir hd]

theorem releaseBody_eq (pool : Pool) (p : Port) (body : StagedBody) : pool.releaseBody p body
    = { pool.loseAll (body.pages.map StagedPage.page) with
        stagedOwned := pool.stagedOwned.set p (pool.stagedOwned.get p - body.pages.countP (fun x => x.owned)) } := by
  simp only [Pool.releaseBody, Pool.loseAll_stagedOwned]
  rfl

/-- Settles O28, by the check of a release on each chain and the loss of one page. -/
theorem releaseKeepsExactlyTheSeenVersions : Obligations.ReleaseKeepsExactlyTheSeenVersions := by
  refine ⟨fun s hdir => ?_, fun pool n hr => ⟨fun m => Pool.lose_ref hr n m, Pool.lose_free pool n, Pool.lose_bytes pool n,
      Pool.lose_stagedOwned pool n⟩, fun pool => ⟨rfl, fun _ _ => rfl⟩, releaseBody_eq, fun p pool => ⟨rfl, fun i rest => ?_⟩⟩
  · intro t seen kept gone
    refine ⟨fun d hd newest older hc => ?_, fun tag h => chainOf_retireBy_of_not_mem h, retireOnRelease_pool s,
      fun he => ?_, fun c he => ?_, rfl⟩
    · exact (chainOf_retireBy hdir hd).trans (releaseCheck_kept _ hc)
    · show (retireOnRelease s).engine = _
      rw [retireOnRelease, retireBy_engine, he]
      rfl
    · show (retireOnRelease s).engine = _
      rw [retireOnRelease, retireBy_engine, he, countP_retireOnRelease hdir]
      rfl
  · refine ⟨fun h => ?_, fun body h => ?_⟩
    · simp only [releaseBodies, List.foldl_cons, releaseOp, h]
    · simp only [releaseBodies, List.foldl_cons, releaseOp, h]

end Sys2Proof.Machine
end

section
/-! SUPPORT. Predicates of a state that do not look at the port interfaces and the notification state: closed under the
few changes of a port's snapshot slot, they are closed under everything a frame does but the requests of the other blocks,
and with those under every command. -/

namespace Sys2Proof.Machine

/-- A predicate that looks neither at interfaces nor at notification state, kept by the binding and the release of a
snapshot slot. -/
structure PortBlind (P : State → Prop) : Prop where
  iface : ∀ u p x, P u → P (u.setIface p x)
  notes : ∀ u n, P u → P { u with notes := n }
  hold : ∀ u p x, x.state = (u.snaps.get p).state → P u → P (u.setSnap p x)
  bind : ∀ u p x, (u.snaps.get p).state = .free → x.state = .held u.g ∨ x.state = .frame u.g → P u → P (u.setSnap p x)
  release : ∀ u p x, x.state = .free ∨ x.state = .lapsed → P u → P (retireOnRelease (u.setSnap p x))

/-- What a request of the other blocks does to a predicate of a READY device. -/
structure TakesRequests (P : State → Prop) : Prop extends PortBlind P where
  txn : ∀ u p, u.image.device = .ready → ∀ r ∈ txnRequests, ∀ args, Complete r args → P u → P (takingOf r p args u).1
  resetTxn : ∀ u p, u.image.device = .ready → P u → P (resetTxn p u)
  checkpoint : ∀ u, u.image.device = .ready → u.image.checkpoint = none → u.image.sequence ≠ 0xFFFFFFFF#32 → P u →
    P (withCheckpoint ⟨.erasing 0, checkpointTarget u, 0, 0⟩ (pollFor .erase) { u with slot4 := some u.g })
  cancel : ∀ u c, u.image.device = .ready → u.image.checkpoint = some c → c.stage ≠ .sealing → P u →
    P (endCheckpoint .cancelled u)

variable {P : State → Prop} {s : State}

/-! ### Snapshot slots and read frames -/

theorem PortBlind.lapse (B : PortBlind P) (h : P s) (p : Port) (g : Gen) : P (lapse p g s) :=
  B.notes _ _ (B.release s p ⟨.lapsed, none, false⟩ (.inr rfl) h)

theorem PortBlind.expireHold (B : PortBlind P) (h : P s) (p : Port) : P (expireHold p s) :=
  expireHold_of h (fun _ _ _ hs _ _ => B.hold s p _ hs.symm h) (fun g _ _ _ => B.lapse h p g)

theorem PortBlind.releaseBinding (B : PortBlind P) (h : P s) (p : Port) : P (releaseBinding p s) :=
  releaseBinding_of (fun hs => B.hold s p _ hs.symm h) (fun _ => B.release s p _ (.inl rfl) h)

theorem PortBlind.closeFrame (B : PortBlind P) (h : P s) (p : Port) : P (closeFrame p s) := B.iface s p _ h

theorem PortBlind.endSending (B : PortBlind P) (h : P s) (p : Port) : P (endSending p s) :=
  endSending_of (fun _ _ => B.release _ p _ (.inl rfl) (B.closeFrame h p)) (fun g _ _ => B.lapse (B.closeFrame h p) p g)
    (fun _ _ => B.closeFrame h p)

theorem PortBlind.bindSlot (B : PortBlind P) (h : P s) (p : Port) (streaming : Bool) : P (bindSlot p streaming s) := by
  simp only [Machine.bindSlot]
  split
  next g hs => exact B.hold s p _ rfl h
  next hs =>
    split
    · exact B.bind s p _ hs (.inr rfl) h
    · exact h
  all_goals exact h

theorem PortBlind.beginReceiving (B : PortBlind P) (h : P s) (p : Port) : P (beginReceiving p s) := B.iface s p _ h

theorem PortBlind.beginSending (B : PortBlind P) (h : P s) (p : Port) : P (beginSending p s) :=
  B.iface _ p _ (B.bindSlot (B.expireHold h p) p _)

theorem releaseBinding_g (p : Port) (s : State) : (releaseBinding p s).g = s.g :=
  releaseBinding_of (P := fun t => t.g = s.g) (fun _ => rfl) (fun _ => rfl)

theorem releaseBinding_state (p : Port) (s : State) : ((releaseBinding p s).snaps.get p).state = .free := by
  refine releaseBinding_of (P := fun t => (t.snaps.get p).state = .free) (fun _ => ?_) (fun _ => ?_)
  · simp [freeSlot, Snap.afterReset]
  · simp [freeSlot, Snap.afterReset]

theorem PortBlind.takeSnapOpen (B : PortBlind P) (h : P s) (p : Port) : P (takeSnapOpen p s).1 :=
  B.bind _ p _ (releaseBinding_state p s) (.inl (congrArg _ (releaseBinding_g p s).symm)) (B.releaseBinding h p)

theorem PortBlind.received (B : PortBlind P) (h : P s) (p : Port) (b : Clocked Byte) : P (receiveClocked p b s) :=
  receiveClocked_of h (fun _ _ _ _ => B.iface s p _ h) (fun _ _ _ _ _ => B.iface s p _ h)

theorem PortBlind.sent (B : PortBlind P) (h : P s) (p : Port) (b : Clocked Bool) : P (sendClocked p b s) :=
  sendClocked_of h (fun _ _ _ _ => B.iface s p _ h) (fun _ _ _ _ => B.iface s p _ h)

theorem PortBlind.startFrame (B : PortBlind P) (h : P s) (p : Port)
    (ends : ∀ buffer, P (endReceiving p buffer s))
    {begins : Port → State → State} (hb : ∀ u, P u → P (begins p u)) (address : BitVec 7) :
    P (startFrame begins p address s) := by
  have ho : P (endOpenFrame p s) := by
    unfold endOpenFrame
    split
    · exact h
    · exact ends _
    · exact B.endSending h p
  simp only [Machine.startFrame]
  split
  · exact h
  · split
    · exact B.iface _ p _ (hb _ ho)
    · exact B.iface _ p _ ho

/-! ### Requests -/

theorem TakesRequests.takingOf (T : TakesRequests P) (h : P s) (p : Port) (r : Request)
    (hr : s.image.device = .ready ∨ r = .deviceStatus) {args : List Byte} (complete : Complete r args) : P (takingOf r p args s).1 := by
  rcases hr with hd | rfl
  · have B := T.toPortBlind
    refine takingOf_cases r args h (fun _ _ => B.notes s _ h) (fun _ => B.iface s p _ h)
      (fun _ _ _ => B.notes _ _ (B.iface s p _ h)) (B.takeSnapOpen h p) (B.releaseBinding h p)
      (fun hr => T.txn s p hd r hr args complete h) ?_ ?_ ?_
    · exact B.iface _ p _ (B.notes _ _ (B.releaseBinding (T.resetTxn s p hd h) p))
    · unfold takeCheckpoint
      split
      · split
        · exact h
        next hc =>
          split
          · exact h
          next hs => exact T.checkpoint s hd hc hs h
      · exact h
    · unfold takeCheckpointCancel
      split
      · split
        · exact h
        next c hc =>
          split
          next k hk => exact T.cancel s c hd hc (by rw [hk]; exact nofun) h
          next u position hu => exact T.cancel s c hd hc (by rw [hu]; exact nofun) h
          next => exact h
      · exact h
  · exact h

theorem TakesRequests.endReceiving (T : TakesRequests P) (h : P s) (p : Port) (buffer : List Byte) :
    P (endReceiving p buffer s) := by
  have hj : P (judgedState p s) := T.iface s p _ h
  rcases endReceiving_cases p buffer s with he | ⟨code, a, he⟩ | ⟨r, args, complete, hr, he⟩
  · exact he ▸ T.closeFrame h p
  · exact he ▸ T.iface _ p _ hj
  · exact he ▸ T.iface _ p _ (T.takingOf hj p r hr complete)

/-- Every command keeps a predicate that takes requests, when the happenings of the engine, the image controller and the
time base keep it. -/
theorem TakesRequests.exec (T : TakesRequests P) {c : Instr} {t : State} (h : P s)
    (tick : P (tickAll s))
    (idleExpiry : ∀ p, P (expireIdle p s))
    (take : P (takeHead s))
    (digest : P (digestPage s))
    (publish : P (publishHead s))
    (reset : ∀ cause, c = .deviceReset cause → P (deviceReset cause s))
    (resetEnd : ∀ adr priv, P (deviceResetEnd adr priv s))
    (pollReady : ∀ left, P (pollReady left s))
    (pollTimeout : P (pollTimeout s))
    (eraseDone : ∀ left, P (eraseDone left s))
    (eraseExpiry : P (expireErase s))
    (programDone : ∀ left, P (programDone left s))
    (programExpiry : P (expireProgram s))
    (readback : ∀ received, P (readbackDone received s))
    (headers : P (headersRead s))
    (checked : P (entryChecked s))
    (installed : P (entryInstalled s))
    (hc : exec c s = .next t) : P t :=
  exec_cases h (fun p _ _ _ held _ => T.endReceiving h p held) (fun p _ _ _ => T.endSending h p)
    (fun p a => T.startFrame h p (T.endReceiving h p) (fun _ hu => T.beginReceiving hu p) a)
    (fun p a => T.startFrame h p (T.endReceiving h p) (fun _ hu => T.beginSending hu p) a)
    tick (T.expireHold h) idleExpiry take digest publish reset resetEnd pollReady pollTimeout eraseDone eraseExpiry programDone
    programExpiry readback headers checked installed (T.received h) (T.sent h) hc

/-! ### The flash -/

/-- A predicate of the flash alone takes requests: no request and no frame reaches the flash. -/
theorem takesRequests_flash (Q : Flash → Prop) : TakesRequests (fun u => Q u.flash) where
  iface _ _ _ h := h
  notes _ _ h := h
  hold _ _ _ _ h := h
  bind _ _ _ _ _ h := h
  release _ _ _ _ h := h
  txn u p _ r hr args _ h := by
    obtain ⟨pool, queue, ctx, he⟩ := takingOf_txn_frame hr p args u
    rw [he]
    exact h
  resetTxn u p _ h := by
    unfold Machine.resetTxn
    dsimp only
    split <;> exact h
  checkpoint _ _ _ _ h := h
  cancel _ _ _ _ _ h := h

theorem publishCommit_flash (c : Commit) (s : State) : (publishCommit c s).flash = s.flash := by
  have hinstalled : ∀ (intents : List Intent) (u : State), (intents.foldl (installIntent c.port c.done) u).flash = u.flash := by
    intro intents
    induction intents with
    | nil => exact fun _ => rfl
    | cons i rest ih => exact fun u => ih _
  have htold : ∀ u, (endCommitter c.port u).flash = u.flash := by
    intro u
    simp only [endCommitter]
    split <;> rfl
  simp only [publishCommit, State.setTxn_flash, (deliverRecordEvents_pool_flash _ _).2, htold, retireOnPublish, retireBy_flash,
    hinstalled]

/-- The bytes at the addresses `A` of the flash are those of a memory. -/
def flashHolds (A : Nat → Prop) (m : Memory) (s : State) : Prop :=
  ∀ addr, A addr → cellRead erasedByte s.flash.mem addr = cellRead erasedByte m addr

theorem cellRead_settle {f : Flash} (hm : Memory.wf erasedByte f.mem = true) {a : Nat}
    (hunit : ∀ addr data, f.running = some (.program addr data) → data.length = 256)
    (hspare : ∀ run, f.running = some run → ¬ run.reaches a) (left : Option (List Byte)) :
    cellRead erasedByte (f.settle left).mem a = cellRead erasedByte f.mem a := by
  cases hr : f.running with
  | none => rw [Flash.settle_of_idle hr]
  | some run =>
    rw [Flash.settle_of_running hr]
    exact FlashRun.cellRead_land_of_not_reaches hm (fun addr data e => hunit addr data (e ▸ hr)) left (hspare run hr)

theorem cellRead_cutOff {f : Flash} (hm : Memory.wf erasedByte f.mem = true) {a : Nat}
    (hunit : ∀ addr data, f.running = some (.program addr data) → data.length = 256)
    (hspare : ∀ run, f.running = some run → ¬ run.reaches a) (left : Option (List Byte)) :
    cellRead erasedByte (f.cutOff left).mem a = cellRead erasedByte f.mem a := by
  cases hr : f.running with
  | none => rw [Flash.cutOff_mem_of_none f left (.inl hr)]
  | some run =>
    cases left with
    | none => rw [Flash.cutOff_mem_of_none f none (.inr rfl)]
    | some bs =>
      have h := cellRead_settle hm hunit hspare (some bs)
      rwa [Flash.settle_of_running hr, ← Flash.cutOff_of_running hr] at h

/-- Settles O12: only a running operation's end writes the flash, and none that runs reaches the current slot. -/
theorem currentSlotIsNeverWritten : Obligations.CurrentSlotIsNeverWritten := by
  intro c s t i h hc hi
  have keep : ∀ u : State, u.flash.mem = s.flash.mem → flashHolds i.holds s.flash.mem u := fun u e a _ => by rw [e]
  have keepEq : ∀ u : State, u.flash = s.flash → flashHolds i.holds s.flash.mem u := fun u e => keep u (congrArg Flash.mem e)
  have spare : ∀ a, i.holds a → ∀ run, s.flash.running = some run → ¬ run.reaches a :=
    fun a ha run hr hreach => h.image.runSpares run i hr hi a hreach ha
  have settled : ∀ left (u : State), u.flash.mem = (s.flash.settle left).mem → flashHolds i.holds s.flash.mem u :=
    fun left u e a ha => by rw [e, cellRead_settle h.memories.flash h.image.runUnit (spare a ha)]
  have T := takesRequests_flash (fun f => ∀ addr, i.holds addr → cellRead erasedByte f.mem addr = cellRead erasedByte s.flash.mem addr)
  refine T.exec (keep s rfl) ?tick ?idleExpiry ?take ?digest ?publish ?reset ?resetEnd ?pollReady ?pollTimeout ?eraseDone
    ?eraseExpiry ?programDone ?programExpiry ?readback ?headers ?checked ?installed hc
  case tick =>
    unfold tickAll
    split <;> exact keep _ rfl
  case idleExpiry => exact fun p => expireIdle_of (keep s rfl) fun _ _ => keep _ rfl
  case take => exact takeHead_of (keep s rfl) (fun _ _ _ _ _ _ => keep _ rfl) (fun _ _ _ _ _ => keep _ rfl)
  case digest => exact digestPage_of (keep s rfl) fun _ _ => keep _ rfl
  case publish => exact publishHead_of (keep s rfl) fun c _ _ => keepEq _ (publishCommit_flash c s)
  case reset =>
    intro cause _
    cases cause with
    | resetN => exact keep _ rfl
    | power left =>
      exact fun a ha => cellRead_cutOff h.memories.flash h.image.runUnit (spare a ha) left
  case resetEnd =>
    intro _ _
    unfold deviceResetEnd
    split <;> exact keep _ rfl
  case pollReady =>
    refine fun left => pollReady_of (keep s rfl) (fun _ _ => ?_) (fun _ _ _ _ => settled left _ rfl) (fun _ c _ _ => ?_)
      (fun _ c _ _ => ?_)
    · unfold sendLoadRead
      split <;> exact settled left _ rfl
    · unfold sendErase
      split <;> exact settled left _ rfl
    · unfold sendProgram
      split <;> exact settled left _ rfl
  case pollTimeout => exact pollTimeout_of (keep s rfl) (fun _ _ _ => keep _ rfl) (fun _ _ _ _ _ _ => keep _ rfl)
  case eraseDone =>
    exact fun left => eraseDone_of (keep s rfl) fun _ _ _ _ _ => eraseEnded_of (settled left _ rfl)
      (fun _ _ _ => settled left _ rfl) (fun _ _ _ => settled left _ rfl) (fun _ _ _ => settled left _ rfl)
  case eraseExpiry => exact expireErase_of (keep s rfl) fun _ _ _ => keep _ rfl
  case programDone => exact fun left => programDone_of (keep s rfl) fun _ _ _ _ => settled left _ rfl
  case programExpiry => exact expireProgram_of (keep s rfl) fun _ _ _ _ => keep _ rfl
  case readback =>
    exact fun _ => readbackDone_of (keep s rfl)
      (fun _ _ _ _ _ => unitVerified_of (keep s rfl) (fun _ _ _ _ => keep _ rfl) (fun _ _ _ _ => keep _ rfl)
        (fun _ => keep _ rfl))
      (fun _ _ _ _ _ => keep _ rfl)
  case headers =>
    exact headersRead_of (keep s rfl) (fun _ _ => keep _ rfl)
      (fun _ _ => trySlots_of (keep _ rfl) (fun _ _ _ => keep _ rfl) (fun _ _ _ => keep _ rfl))
  case checked =>
    exact entryChecked_of (keep s rfl)
      (fun _ _ _ => trySlots_of (keep _ rfl) (fun _ _ _ => keep _ rfl) (fun _ _ _ => keep _ rfl))
      (fun _ _ _ _ _ => keep _ rfl) (fun _ _ _ => keep _ rfl)
  case installed =>
    have hinstalled : ∀ e u, installEntry e s = some u → u.flash = s.flash := by
      intro e u hu
      obtain ⟨-, -, -, content, pool, -, rfl⟩ := installEntry_inv hu
      rfl
    exact entryInstalled_of (keep s rfl) (fun _ _ _ => keep _ rfl) (fun _ e u _ _ _ hu => keepEq _ (hinstalled e u hu))
      (fun _ e u _ _ _ hu => keepEq _ (hinstalled e u hu))

end Sys2Proof.Machine
end

section
/-! SUPPORT. PORT_RESET, block by block, and the statement about it. -/

namespace Sys2Proof.Machine

variable {p : Port} {s t : State}

/-- A retirement depends on the chains, the pool, the engine, the slots and the tags that the commit creates. -/
theorem retireOnRelease_congr (hd : t.directory = s.directory) (hp : t.pool = s.pool) (he : t.engine = s.engine)
    (hh : holdingGens t = holdingGens s) (hc : createdInCommit t = createdInCommit s) :
    (retireOnRelease t).directory = (retireOnRelease s).directory ∧ (retireOnRelease t).pool = (retireOnRelease s).pool
      ∧ (retireOnRelease t).engine = (retireOnRelease s).engine := by
  simp only [retireOnRelease, retireBy_directory, retireBy_pool, retireBy_engine, hd, hp, he, hh, hc, and_self]

/-- The tags that the commit creates depend on the intents of the commit's port alone. -/
theorem createdInCommit_congr (he : t.engine = s.engine)
    (hi : ∀ c, s.engine = .digesting c → (t.txns.get c.port).intents = (s.txns.get c.port).intents) :
    createdInCommit t = createdInCommit s := by
  simp only [createdInCommit, he]
  split
  next => rfl
  next c hc => rw [hi c hc]

/-- A context being applied becomes or stays DETACHED (R92). -/
theorem resetTxn_of_taken (h : (s.txns.get p).state = .applying ∨ (s.txns.get p).state = .detached) :
    resetTxn p s = s.setTxn p ⟨.detached, (s.txns.get p).intents, none, .none, .none⟩ := by
  rcases h with h | h
  all_goals simp only [resetTxn, h]

/-- Any other context is discarded, with its queue entry and its staged bodies (R92, R95). -/
theorem resetTxn_of_not_taken (hc : ContextsOk s)
    (h : ¬ ((s.txns.get p).state = .applying ∨ (s.txns.get p).state = .detached)) : resetTxn p s = { s with
      pool := if (s.txns.get p).state = CtxState.opened ∨ (s.txns.get p).state = CtxState.queued
        then releaseBodies p s.pool (s.txns.get p).intents else s.pool
      commitQueue := s.commitQueue.filter (fun q => q != p) }.setTxn p ⟨.none, [], none, .none, .none⟩ := by
  have hout : (s.txns.get p).state ≠ .queued → s.commitQueue.filter (fun q => q != p) = s.commitQueue := fun hq =>
    List.filter_eq_self.mpr fun q hmem => bne_iff_ne.mpr fun e => hq ((hc.queued p).mp (e ▸ hmem))
  cases hs : (s.txns.get p).state with
  | none =>
    have hempty := (hc.contexts p).noneEmpty hs
    simp [resetTxn, hs, hout, hempty]
  | opened => simp [resetTxn, hs, hout, discardTxn]
  | queued => simp [resetTxn, hs, discardTxn, leaveQueue]
  | applying => exact absurd (.inl hs) h
  | detached => exact absurd (.inr hs) h

/-- PORT_RESET's row: the release of the slot over the reset context, then notification state and interface. -/
theorem exec_portReset (h : readyWith p [0x03#8] s) : exec (.portReset p) s = .next
    (((releaseBinding p (resetTxn p (judgedState p s))).setNote p Notify.afterReset).setIface p
      { Iface.afterReset with reply := ⟨.ok, 0x03#8, s.g, []⟩ }) := by
  obtain ⟨hready, hframe⟩ := h
  refine (exec_requestRow .portReset p s).trans (congrArg Host.Outcome.next ?_)
  rw [endRequest_taken (a := Answer.bare .ok) hframe le_rfl (.inl hready) rfl]
  simp only [resetIface, resetNote, State.setIface_setIface, State.setIface_ifaces, PortMap.get_set_self]
  rfl

/-- A discarded port is not the committer, so the commit's intents stand; a DETACHED one keeps its intents. -/
theorem resetTxn_created (hc : ContextsOk s) : createdInCommit (resetTxn p s) = createdInCommit s := by
  by_cases ht : (s.txns.get p).state = .applying ∨ (s.txns.get p).state = .detached
  · rw [resetTxn_of_taken ht]
    refine createdInCommit_congr rfl fun c _ => ?_
    by_cases hp : c.port = p
    · simp [hp]
    · simp [hp]
  · rw [resetTxn_of_not_taken hc ht]
    refine createdInCommit_congr rfl fun c he => ?_
    have hp : c.port ≠ p := fun e => ht ((hc.digesting c he p).mpr e.symm)
    simp [hp]

theorem resetTxn_frame (p : Port) (s : State) : ∃ pool queue ctx,
    resetTxn p s = { s with pool := pool, commitQueue := queue }.setTxn p ctx := by
  unfold resetTxn
  dsimp only
  split
  case h_1 | h_4 | h_5 => exact ⟨s.pool, s.commitQueue, _, rfl⟩
  case h_2 => exact ⟨_, s.commitQueue, _, State.setTxn_setTxn ..⟩
  case h_3 => exact ⟨_, _, _, State.setTxn_setTxn ..⟩

theorem releaseBinding_frame (p : Port) (s : State) : ∃ directory pool engine, releaseBinding p s
    = { s with directory := directory, pool := pool, engine := engine }.setSnap p ⟨.free, none, false⟩ := by
  refine releaseBinding_of (P := fun t => ∃ directory pool engine,
    t = { s with directory := directory, pool := pool, engine := engine }.setSnap p ⟨.free, none, false⟩)
    (fun _ => ⟨s.directory, s.pool, s.engine, rfl⟩)
    (fun _ => ⟨(retireOnRelease (freeSlot p s)).directory, (retireOnRelease (freeSlot p s)).pool,
      (retireOnRelease (freeSlot p s)).engine, rfl⟩)

theorem releaseBinding_stagedOwned (p : Port) (s : State) : (releaseBinding p s).pool.stagedOwned = s.pool.stagedOwned :=
  releaseBinding_of (P := fun t => t.pool.stagedOwned = s.pool.stagedOwned) (fun _ => rfl)
    (fun _ => by rw [retireOnRelease_pool, Pool.loseAll_stagedOwned]; rfl)

/-- The store and the engine after a release that follows the reset of the context. -/
theorem releaseBinding_resetTxn (hc : ContextsOk s) {discarded : State} {ifaces : PortMap Iface}
    (hd : discarded = { s with ifaces := ifaces, pool := (resetTxn p s).pool }) :
    let released := if (s.snaps.get p).state = .free then discarded
      else retireOnRelease (discarded.setSnap p ⟨.free, none, false⟩)
    (releaseBinding p (resetTxn p s)).directory = released.directory
      ∧ (releaseBinding p (resetTxn p s)).pool = released.pool
      ∧ (releaseBinding p (resetTxn p s)).engine = released.engine := by
  obtain ⟨pool, queue, ctx, he⟩ := resetTxn_frame p s
  have hsnaps : (resetTxn p s).snaps = s.snaps := by rw [he]; rfl
  subst hd
  intro released
  by_cases hs : (s.snaps.get p).state = .free
  · have hr : released = { s with ifaces := ifaces, pool := (resetTxn p s).pool } := if_pos hs
    rw [hr, releaseBinding_of_free (by rw [hsnaps]; exact hs), he]
    exact ⟨rfl, rfl, rfl⟩
  · have hr : released = retireOnRelease
        ({ s with ifaces := ifaces, pool := (resetTxn p s).pool }.setSnap p ⟨.free, none, false⟩) := if_neg hs
    rw [hr, releaseBinding_of_bound (by rw [hsnaps]; exact hs)]
    refine retireOnRelease_congr ?_ rfl ?_ ?_ (resetTxn_created (s := s) hc)
    all_goals
      rw [he]
      rfl

/-- Settles O26, block by block; the release runs on the pool that the discarded context leaves. -/
theorem portResetClearsItsPort : Obligations.PortResetClearsItsPort := by
  intro p s h hready ctx taken discarded released
  obtain ⟨pool, queue, reset, he⟩ := resetTxn_frame p (judgedState p s)
  obtain ⟨directory, pool', engine, hb⟩ := releaseBinding_frame p (resetTxn p (judgedState p s))
  have hc : ContextsOk (judgedState p s) := ⟨h.contexts.contexts, h.contexts.queueOnce, h.contexts.queued, h.contexts.idle,
    h.contexts.digesting, h.contexts.quiet, h.contexts.resetLoading⟩
  have htaken : taken → resetTxn p (judgedState p s) = (judgedState p s).setTxn p ⟨.detached, ctx.intents, none, .none, .none⟩ :=
    resetTxn_of_taken (s := judgedState p s)
  have hnot : ¬ taken → resetTxn p (judgedState p s) = { judgedState p s with
      pool := if ctx.state = CtxState.opened ∨ ctx.state = CtxState.queued then releaseBodies p s.pool ctx.intents else s.pool
      commitQueue := s.commitQueue.filter (fun q => q != p) }.setTxn p ⟨.none, [], none, .none, .none⟩ :=
    resetTxn_of_not_taken hc
  have hdiscarded : discarded = { judgedState p s with ifaces := s.ifaces, pool := (resetTxn p (judgedState p s)).pool } := by
    by_cases ht : taken
    · have hno : ¬ (ctx.state = .opened ∨ ctx.state = .queued) := by
        rcases ht with ht | ht <;> simp [ht]
      rw [htaken ht]
      exact if_neg hno
    · rw [hnot ht]
      simp only [discarded]
      split <;> rfl
  obtain ⟨hdir, hpool, hengine⟩ := releaseBinding_resetTxn hc hdiscarded
  have hframe : releaseBinding p (resetTxn p (judgedState p s)) = { { judgedState p s with
      pool := pool, commitQueue := queue }.setTxn p reset with directory := directory, pool := pool', engine := engine }.setSnap p
        ⟨.free, none, false⟩ := hb.trans (by rw [he])
  have htxns : (releaseBinding p (resetTxn p (judgedState p s))).txns = (resetTxn p (judgedState p s)).txns := by rw [hb]; rfl
  have hqueue : (releaseBinding p (resetTxn p (judgedState p s))).commitQueue = (resetTxn p (judgedState p s)).commitQueue := by
    rw [hb]; rfl
  refine ⟨_, exec_portReset hready, ?_, ?_, ?_, fun ht => ⟨?_, ?_⟩, fun ht => ⟨?_, ?_, ?_⟩, hdir, hpool, hengine,
    fun q hq => ⟨?_, ?_, ?_, ?_⟩, ?_⟩
  · simp [Iface.afterReset]
    rfl
  · simp [Notify.afterReset]
  · simp [hb]
  · show (releaseBinding p (resetTxn p (judgedState p s))).txns.get p = _
    rw [htxns, htaken ht, State.setTxn_txns, PortMap.get_set_self]
  · show (releaseBinding p (resetTxn p (judgedState p s))).commitQueue = _
    rw [hqueue, htaken ht]
    rfl
  · show (releaseBinding p (resetTxn p (judgedState p s))).txns.get p = _
    rw [htxns, hnot ht, State.setTxn_txns, PortMap.get_set_self]
  · show (releaseBinding p (resetTxn p (judgedState p s))).commitQueue = _
    rw [hqueue, hnot ht]
    rfl
  · show (releaseBinding p (resetTxn p (judgedState p s))).pool.stagedOwned.get p = 0
    rw [releaseBinding_stagedOwned, hnot ht, State.setTxn_pool]
    dsimp only
    split
    next => exact releaseBodies_stagedOwned_eq_zero h.pages p
    next ho =>
      have hempty : ctx.intents = [] := (h.contexts.contexts p).noneEmpty (by
        cases hs : ctx.state <;> simp_all [taken])
      rw [h.pages.stagedOwned p, stagedBodies, hempty]
      rfl
  · simp [hframe, hq]
  · simp [hframe, hq]
  · simp [hframe, hq]
  · simp [hframe, hq]
  · rw [hb, he]
    rfl

end Sys2Proof.Machine
end

section
/-! SUPPORT. The page lists of the part and the pages they hold, the bounds that follow from the invariants, and the
invariants in device reset. -/

namespace Sys2Proof.Machine

/-! ### The page lists (R24) -/

section
variable {s : State}

theorem mem_versionPageLists {x : Tag × List PageNo} :
    x ∈ versionPageLists s ↔ ∃ d ∈ s.directory, ∃ v ∈ d.chain, x = (d.tag, v.pages) := by
  simp only [versionPageLists, List.mem_flatMap, List.mem_map, eq_comm]

theorem mem_stagedPageLists {p : Port} {x : Tag × List PageNo} :
    x ∈ stagedPageLists p s ↔ ∃ i ∈ (s.txns.get p).intents, ∃ b, i.op.body? = some b ∧ x = (i.tag, b.pageNos) := by
  simp only [stagedPageLists, List.mem_filterMap, Option.map_eq_some_iff, eq_comm (a := x)]

theorem mem_stagedBodies {p : Port} {b : StagedBody} :
    b ∈ stagedBodies p s ↔ ∃ i ∈ (s.txns.get p).intents, i.op.body? = some b := by
  simp only [stagedBodies, List.mem_filterMap]

theorem mem_pageLists {x : Tag × List PageNo} : x ∈ pageLists s
    ↔ (∃ d ∈ s.directory, ∃ v ∈ d.chain, x = (d.tag, v.pages))
      ∨ ∃ p, ∃ i ∈ (s.txns.get p).intents, ∃ b, i.op.body? = some b ∧ x = (i.tag, b.pageNos) := by
  simp only [pageLists, List.mem_append, List.mem_flatMap, mem_versionPageLists, mem_stagedPageLists, Port.mem_all, true_and]

theorem version_mem_pageLists {d : DirSlot} (hd : d ∈ s.directory) {v : Version} (hv : v ∈ d.chain) :
    (d.tag, v.pages) ∈ pageLists s :=
  mem_pageLists.mpr (.inl ⟨d, hd, v, hv, rfl⟩)

theorem body_mem_pageLists {p : Port} {i : Intent} (hi : i ∈ (s.txns.get p).intents) {b : StagedBody} (hb : i.op.body? = some b) :
    (i.tag, b.pageNos) ∈ pageLists s :=
  mem_pageLists.mpr (.inr ⟨p, i, hi, b, hb, rfl⟩)

/-- A page in a list is counted. -/
theorem PagesOk.ref_pos (h : PagesOk s) {x : Tag × List PageNo} (hx : x ∈ pageLists s) {n : PageNo} (hn : n ∈ x.2) :
    0 < s.pool.ref n := by
  rw [h.counts n]
  exact List.count_pos_iff.mpr (List.mem_flatMap.mpr ⟨x, hx, hn⟩)

theorem PagesOk.lt_poolPages (h : PagesOk s) {x : Tag × List PageNo} (hx : x ∈ pageLists s) {n : PageNo} (hn : n ∈ x.2) :
    n < 1024 := by
  by_contra hle
  have hr : s.pool.ref n = 0 := h.inPool n (Nat.not_lt.mp hle)
  have hpos := h.ref_pos hx hn
  rw [hr] at hpos
  exact Nat.lt_irrefl 0 hpos

theorem Version.listOk.nodup {v : Version} (h : v.listOk) : v.pages.Nodup := by
  unfold Version.listOk at h
  unfold Version.pages
  split
  next hc =>
    rw [hc] at h
    exact h.2.2
  all_goals exact List.nodup_nil

theorem PagesOk.list_nodup (h : PagesOk s) {x : Tag × List PageNo} (hx : x ∈ pageLists s) : x.2.Nodup := by
  rcases mem_pageLists.mp hx with ⟨d, hd, v, hv, rfl⟩ | ⟨p, i, hi, b, hb, rfl⟩
  · exact (h.versionLists d hd v hv).nodup
  · exact (h.bodyLists p b (mem_stagedBodies.mpr ⟨i, hi, hb⟩)).2.2

end

/-! ### A chain holds at most 6 versions (R13, R19) -/

theorem countP_lt_of_mem {α : Type} {f g : α → Bool} {xs : List α} (h : ∀ x ∈ xs, f x = true → g x = true) {a : α} (ha : a ∈ xs)
    (hf : f a = false) (hg : g a = true) : xs.countP f < xs.countP g := by
  induction xs with
  | nil => exact absurd ha List.not_mem_nil
  | cons x rest ih =>
    have hrest : ∀ y ∈ rest, f y = true → g y = true := fun y hy => h y (List.mem_cons_of_mem _ hy)
    rw [List.countP_cons, List.countP_cons]
    rcases List.mem_cons.mp ha with rfl | ha
    · have := List.countP_mono_left hrest
      simp only [hf, hg]
      simp
      omega
    · have := ih hrest ha
      have := h x List.mem_cons_self
      cases hfx : f x <;> cases hgx : g x <;> simp_all
      omega

theorem Gen.lt_of_lt_of_le {a b c : Gen} (h : a < b) (h' : b ≤ c) : a < c := by bv_omega

theorem Gen.lt_of_le_of_lt {a b c : Gen} (h : a ≤ b) (h' : b < c) : a < c := by bv_omega

/-- The older versions of a chain see different generations below the newest one's. -/
theorem chainSeen_length {gens : List Gen} {newest : Version} {older : List Version} (hs : chainSeen gens (newest :: older)) :
    older.length ≤ gens.countP (fun g => decide (g < newest.gen)) := by
  induction older generalizing newest with
  | nil => exact Nat.zero_le _
  | cons v older ih =>
    obtain ⟨⟨g, hg, hle, hlt⟩, hs⟩ := hs
    refine Nat.lt_of_le_of_lt (ih hs) (countP_lt_of_mem (fun x _ hx => ?_) hg ?_ ?_)
    · simp only [decide_eq_true_eq] at hx ⊢
      exact BitVec.lt_trans (Gen.lt_of_lt_of_le hx hle) hlt
    · simpa using BitVec.not_lt.mpr hle
    · simpa using hlt

theorem holdingGens_length (s : State) : (holdingGens s).length ≤ 5 := by
  rw [holdingGens, List.length_append]
  have hports := List.length_filterMap_le (fun p => match (s.snaps.get p).state with
    | .held g => some g
    | .frame g => some g
    | .free | .lapsed => none) Port.all
  have hfour : s.slot4.toList.length ≤ 1 := by cases s.slot4 <;> simp
  exact Nat.add_le_add hports hfour

theorem StoreOk.chain_length {s : State} (h : StoreOk s) {d : DirSlot} (hd : d ∈ s.directory) : d.chain.length ≤ 6 := by
  have hseen := h.seen d hd
  cases hc : d.chain with
  | nil => exact Nat.zero_le _
  | cons newest older =>
    rw [hc] at hseen
    exact Nat.succ_le_succ ((chainSeen_length hseen).trans ((List.countP_le_length).trans (holdingGens_length s)))

/-! ### A page has at most 10 references (R24) -/

/-- The count of a page in lists without repetition of one tag is at most the number of those lists. -/
theorem count_flatMap_le {n : PageNo} {tag : Tag} {xs : List (Tag × List PageNo)} (hnodup : ∀ x ∈ xs, x.2.Nodup)
    (htag : ∀ x ∈ xs, n ∈ x.2 → x.1 = tag) : (xs.flatMap Prod.snd).count n ≤ xs.countP (fun x => x.1 == tag) := by
  induction xs with
  | nil => exact Nat.le_refl _
  | cons x rest ih =>
    have hrest := ih (fun y hy => hnodup y (List.mem_cons_of_mem _ hy)) (fun y hy => htag y (List.mem_cons_of_mem _ hy))
    rw [List.flatMap_cons, List.count_append, List.countP_cons, Nat.add_comm]
    refine Nat.add_le_add hrest ?_
    by_cases hn : n ∈ x.2
    · rw [if_pos (by simpa using htag x List.mem_cons_self hn)]
      exact List.nodup_iff_count_le_one.mp (hnodup x List.mem_cons_self) n
    · rw [List.count_eq_zero_of_not_mem hn]
      exact Nat.zero_le _

theorem countP_tag_le_one {α : Type} {f : α → Tag} {xs : List α} (h : (xs.map f).Nodup) (tag : Tag) :
    xs.countP (fun x => f x == tag) ≤ 1 := by
  have hc : xs.countP (fun x => f x == tag) = (xs.map f).count tag := by
    rw [List.count, List.countP_map]
    rfl
  exact hc ▸ List.nodup_iff_count_le_one.mp h tag

theorem StoreOk.tags_nodup {s : State} (h : StoreOk s) : (s.directory.map DirSlot.tag).Nodup :=
  h.tagsRise.imp fun {a b} (hlt : a < b) (he : a = b) => BitVec.lt_irrefl b (he ▸ hlt)

/-- The version lists of one record are those of its chain. -/
theorem countP_versionPageLists {s : State} (h : StoreOk s) (tag : Tag) :
    (versionPageLists s).countP (fun x => x.1 == tag) ≤ 6 := by
  have hslots := countP_tag_le_one h.tags_nodup tag
  have hlen : ∀ d ∈ s.directory, d.chain.length ≤ 6 := fun d hd => h.chain_length hd
  rw [versionPageLists]
  suffices hle : (s.directory.flatMap (fun d => d.chain.map (fun v => (d.tag, v.pages)))).countP (fun x => x.1 == tag)
      ≤ 6 * s.directory.countP (fun d => d.tag == tag) by omega
  clear h hslots
  revert hlen
  induction s.directory with
  | nil => exact fun _ => Nat.le_refl _
  | cons d rest ih =>
    intro hlen
    have hrest := ih fun x hx => hlen x (List.mem_cons_of_mem _ hx)
    have hd := hlen d List.mem_cons_self
    rw [List.flatMap_cons, List.countP_append, List.countP_map, List.countP_cons]
    by_cases ht : d.tag = tag
    · have := List.countP_le_length (p := (fun x : Tag × List PageNo => x.1 == tag) ∘ fun v : Version => (d.tag, v.pages))
        (l := d.chain)
      simp only [ht, beq_self_eq_true, if_true]
      rw [ht] at this
      omega
    · have hz : d.chain.countP ((fun x : Tag × List PageNo => x.1 == tag) ∘ fun v : Version => (d.tag, v.pages)) = 0 :=
        List.countP_eq_zero.mpr fun v _ => by simpa using ht
      omega

/-- A port stages at most one body for a record. -/
theorem countP_stagedPageLists {s : State} (h : ContextsOk s) (p : Port) (tag : Tag) :
    (stagedPageLists p s).countP (fun x => x.1 == tag) ≤ 1 := by
  refine countP_tag_le_one (((h.contexts p).tagsDiffer).sublist ?_) tag
  rw [stagedPageLists, List.map_filterMap]
  induction (s.txns.get p).intents with
  | nil => exact List.Sublist.slnil
  | cons i rest ih =>
    rw [List.filterMap_cons]
    cases i.op.body? with
    | none => exact ih.cons _
    | some b => exact ih.cons_cons _

theorem Coherent.ref_le {s : State} (h : Coherent s) (n : PageNo) : s.pool.ref n ≤ 10 := by
  rw [h.pages.counts n]
  by_cases hn : n ∈ (pageLists s).flatMap Prod.snd
  · obtain ⟨x, hx, hnx⟩ := List.mem_flatMap.mp hn
    refine (count_flatMap_le (fun y hy => h.pages.list_nodup hy)
      (fun y hy hny => h.pages.oneRecord y hy x hx n hny hnx)).trans ?_
    have hv := countP_versionPageLists h.store x.1
    have hb := fun p => countP_stagedPageLists h.contexts p x.1
    have h0 := hb .p0
    have h1 := hb .p1
    have h2 := hb .p2
    have h3 := hb .p3
    rw [pageLists, List.countP_append]
    simp only [Port.all, List.flatMap_cons, List.flatMap_nil, List.append_nil, List.countP_append]
    omega
  · rw [List.count_eq_zero_of_not_mem hn]
    exact Nat.zero_le _

/-! ### An image stream holds at most 34,240 bytes (R142) -/

theorem exists_slot_of_mem_savedRecords {dir : List DirSlot} {gen : Gen} {x : Tag × Version} (h : x ∈ savedRecords dir gen) :
    ∃ d ∈ dir, d.tag = x.1 ∧ x.2 ∈ d.chain := by
  obtain ⟨d, hd, ht, hv⟩ := exists_slot_of_mem_visibleRecords (List.mem_of_mem_filter h)
  obtain ⟨newer, older, hc, -⟩ := versionAt_eq_some_iff.mp (visibleAt_eq_some_iff.mp hv).2
  exact ⟨d, hd, ht, by rw [hc]; simp⟩

/-- A saved BLOB is counted with its pages, at most 64 of them, and a saved COUNTER with its four bytes. -/
theorem streamLength_le {xs : List (Tag × Version)} (hlist : ∀ x ∈ xs, x.2.listOk) (hattrs : ∀ x ∈ xs, ∃ a, x.2.attrs? = some a) :
    ∃ blobs counters, xs.length = blobs + counters ∧ (xs.flatMap (fun x => x.2.pages)).length ≤ 64 * blobs
      ∧ streamLength xs ≤ 8 * xs.length + 32 * (xs.flatMap (fun x => x.2.pages)).length + 4 * counters := by
  induction xs with
  | nil => exact ⟨0, 0, rfl, Nat.le_refl _, Nat.le_refl _⟩
  | cons x rest ih =>
    obtain ⟨blobs, counters, hlen, hpages, hstream⟩ := ih (fun y hy => hlist y (List.mem_cons_of_mem _ hy))
      (fun y hy => hattrs y (List.mem_cons_of_mem _ hy))
    have hx := hlist x List.mem_cons_self
    obtain ⟨a, ha⟩ := hattrs x List.mem_cons_self
    have hcons : streamLength (x :: rest) = (8 + x.2.length) + streamLength rest := rfl
    rw [hcons, List.flatMap_cons, List.length_append, List.length_cons]
    cases hc : x.2.content with
    | blob attrs length pages crc =>
      simp only [Version.listOk, hc, pagesFor] at hx
      obtain ⟨hmax, hcount, -⟩ := hx
      have hps : x.2.pages = pages := by simp only [Version.pages, hc]
      have hl : x.2.length = length := by simp only [Version.length, hc]
      have hm : Config.maxBody = 2048 := rfl
      have hz : Config.pageSize = 32 := rfl
      rw [hm] at hmax
      rw [hz] at hcount
      refine ⟨blobs + 1, counters, by omega, ?_, ?_⟩
      · rw [hps]
        omega
      · rw [hps, hl]
        omega
    | counter attrs value crc =>
      have hps : x.2.pages = [] := by simp only [Version.pages, hc]
      have hl : x.2.length = 4 := by simp only [Version.length, hc]
      refine ⟨blobs, counters + 1, by omega, ?_, ?_⟩
      · rw [hps]
        simpa using hpages
      · rw [hps, hl]
        simp only [List.length_nil]
        omega
    | tombstone => simp [Version.attrs?, hc] at ha

/-- The pages of records with different tags are different pages of the pool. -/
theorem Coherent.savedPages_length {s : State} (h : Coherent s) (g : Gen) :
    ((savedRecords s.directory g).flatMap (fun x => x.2.pages)).length ≤ 1024 := by
  have hlist : ∀ x ∈ savedRecords s.directory g, (x.1, x.2.pages) ∈ pageLists s := by
    intro x hx
    obtain ⟨d, hd, ht, hv⟩ := exists_slot_of_mem_savedRecords hx
    exact ht ▸ version_mem_pageLists hd hv
  have hnodup : ((savedRecords s.directory g).flatMap (fun x => x.2.pages)).Nodup := by
    refine List.nodup_flatMap.mpr ⟨fun x hx => h.pages.list_nodup (hlist x hx), ?_⟩
    refine (savedRecords_rise h.store.tagsRise g).imp_of_mem fun {x y} hx hy hlt => ?_
    intro n hnx hny
    exact absurd (h.pages.oneRecord _ (hlist x hx) _ (hlist y hy) n hnx hny) (fun e => BitVec.lt_irrefl _ (e ▸ hlt))
  have hsub : (savedRecords s.directory g).flatMap (fun x => x.2.pages) ⊆ List.range 1024 := by
    intro n hn
    obtain ⟨x, hx, hnx⟩ := List.mem_flatMap.mp hn
    exact List.mem_range.mpr (h.pages.lt_poolPages (hlist x hx) hnx)
  simpa using (hnodup.subperm hsub).length_le

theorem Coherent.streamLength_le {s : State} (h : Coherent s) (g : Gen) : streamLength (savedRecords s.directory g) ≤ 34240 := by
  have hlist : ∀ x ∈ savedRecords s.directory g, x.2.listOk := by
    intro x hx
    obtain ⟨d, hd, -, hv⟩ := exists_slot_of_mem_savedRecords hx
    exact h.pages.versionLists d hd x.2 hv
  obtain ⟨blobs, counters, hlen, hpages, hstream⟩ := Machine.streamLength_le hlist fun x hx =>
    (attrs_of_mem_savedRecords hx).elim fun w hw => ⟨_, hw⟩
  have hpool := h.savedPages_length g
  have hslots : (savedRecords s.directory g).length ≤ 128 :=
    calc (savedRecords s.directory g).length
        ≤ (visibleRecords s.directory g).length := List.length_filter_le ..
      _ ≤ s.directory.length := List.length_filterMap_le ..
      _ ≤ 128 := (Nat.le_add_right _ _).trans h.store.slotRoom
  omega

/-- Settles O13: windows of a chain are disjoint, lists that share a page are one record's, and saved records share none. -/
theorem invariantsBoundTheStore : Obligations.InvariantsBoundTheStore :=
  fun _ h => ⟨fun _ hd => h.store.chain_length hd, h.ref_le, h.streamLength_le⟩

end Sys2Proof.Machine
end

section
/-! SUPPORT. The invariants of every block at their device-reset values, whatever the flash holds with nothing running in it
for the image controller. -/

namespace Sys2Proof.Machine

theorem portsOk_reset : PortsOk State.reset := by
  intro p
  have hi : State.reset.ifaces.get p = Iface.afterReset := PortMap.get_same _ p
  have hs : State.reset.snaps.get p = Snap.afterReset := PortMap.get_same _ p
  constructor
  case config =>
    rw [hi]
    exact ⟨by decide, by decide, by decide, by decide⟩
  case holdHeld => exact fun h => absurd (by rw [hs]; rfl) h
  case lapseHeld =>
    intro h
    rw [hs] at h
    cases h
  case frameSlot =>
    intro g h
    rw [hs] at h
    cases h
  case idleStopped => exact fun _ => by rw [hi]; rfl
  case view =>
    intro limit f result view h
    rw [hi] at h
    cases h
  all_goals
    intro limit x h
    rw [hi] at h
    cases h

theorem contextsOk_reset : ContextsOk State.reset := by
  have ht : ∀ p, State.reset.txns.get p = Context.afterReset := PortMap.get_same _
  have hnone : ∀ p, (State.reset.txns.get p).state = .none := fun p => by rw [ht]; rfl
  constructor
  case contexts =>
    intro p
    rw [ht p]
    exact ⟨by decide, List.nodup_nil, fun i hi => absurd hi List.not_mem_nil, fun _ => rfl, by decide, by decide, by decide⟩
  case queueOnce => exact List.nodup_nil
  case queued => exact fun p => ⟨fun h => absurd h List.not_mem_nil, fun h => by rw [hnone p] at h; cases h⟩
  case idle => exact fun _ p => by rw [hnone p]; decide
  case digesting => exact fun c h => by cases h
  case quiet => exact fun _ => ⟨rfl, hnone⟩
  case resetLoading => exact fun _ => rfl

theorem holdingGens_reset : holdingGens State.reset = [] := by decide

theorem storeOk_reset : StoreOk State.reset := by
  have hd : ∀ d ∈ State.reset.directory, False := fun d hd => List.not_mem_nil hd
  have ht : ∀ p, (State.reset.txns.get p).intents = [] := fun p => by cases p <;> rfl
  exact {
    tagsRise := List.Pairwise.nil
    occupied := fun d h => (hd d h).elim
    gensFall := fun d h => (hd d h).elim
    noLoneTombstone := fun d h => (hd d h).elim
    seen := fun d h => (hd d h).elim
    gPositive := by decide
    versionGens := fun d h => (hd d h).elim
    snapGens := fun g h => absurd (holdingGens_reset ▸ h) List.not_mem_nil
    slotFour := rfl
    bases := fun p i hi => absurd (ht p ▸ hi) List.not_mem_nil
    gRoom := fun c h => by cases h
    stillPasses := fun c h => by cases h
    entriesReserved := fun c h => by cases h
    slotsReserved := fun c h => by cases h
    entryRoom := by decide
    slotRoom := by decide }

theorem pageLists_reset : pageLists State.reset = [] := by decide

theorem pagesOk_reset : PagesOk State.reset := by
  have hd : ∀ d ∈ State.reset.directory, False := fun d hd => List.not_mem_nil hd
  have hb : ∀ p, stagedBodies p State.reset = [] := fun p => by cases p <;> rfl
  have hr : ∀ n, State.reset.pool.ref n = 0 := fun _ => rfl
  have hf : State.reset.pool.free = List.range 1024 := Pool.afterReset_free
  exact {
    counts := fun n => by rw [hr, pageLists_reset]; rfl
    freePages := fun n => by
      rw [hf, hr, List.mem_range]
      exact (and_iff_left rfl).symm
    freeOnce := hf ▸ List.nodup_range
    inPool := fun n _ => hr n
    versionLists := fun d h => (hd d h).elim
    bodyLists := fun p b h => absurd (hb p ▸ h) List.not_mem_nil
    ownedOnce := fun p b h => absurd (hb p ▸ h) List.not_mem_nil
    stagedOwned := fun p => by
      rw [hb]
      cases p <;> rfl
    versionTails := fun d h => (hd d h).elim
    bodyTails := fun p b h => absurd (hb p ▸ h) List.not_mem_nil
    oneRecord := fun x h => absurd (pageLists_reset ▸ h) List.not_mem_nil
    quota := fun p => by cases p <;> decide
    crcs := fun d h => (hd d h).elim
    digested := fun c h => by cases h }

/-- The image controller at its device-reset values, with any flash. -/
theorem imageOk_deviceReset {f : Flash} (hunit : ∀ addr data, f.running = some (.program addr data) → data.length = 256)
    (pending : List Instr) :
    ImageOk { State.reset with flash := f, pending := pending } where
  inReset _ := ⟨rfl, rfl, rfl, rfl, rfl⟩
  readyLoaded h := by cases h
  loadingNoCheckpoint _ := ⟨rfl, rfl⟩
  noCurrentNoSequence _ := rfl
  target _ _ h := by cases h
  sector _ _ h := by cases h
  unit _ _ _ h := by cases h
  opOwner := iff_of_false (b := false = true) Bool.false_ne_true Bool.false_ne_true
  opLoad h := absurd rfl h
  readQuiet h := by cases h
  loadQuiet h := by
    rcases h with h | h | ⟨c, h | h⟩
    all_goals cases h
  headersOp h := by
    rcases h with h | h
    all_goals cases h
  notYetInstalled _ := rfl
  entriesOp c h := by
    rcases h with h | h
    all_goals cases h
  runUnit := hunit
  opUnit _ h := by cases h
  totals _ h := by cases h
  runSpares _ _ _ h := by cases h

theorem notesOk_reset : NotesOk State.reset := fun p => by
  simpa [State.reset] using Notify.afterReset_ok

theorem memoriesOk_reset : MemoriesOk State.reset := by
  obtain ⟨hb, hr, hf⟩ := memories_reset_wf
  exact ⟨hb, hr, hf⟩

/-- Settles O3, block by block. -/
theorem invariantsHoldAtReset : Obligations.InvariantsHoldAtReset where
  notes := notesOk_reset
  memories := memoriesOk_reset
  ports := portsOk_reset
  contexts := contextsOk_reset
  store := storeOk_reset
  pages := pagesOk_reset
  image := imageOk_deviceReset (f := State.reset.flash) (fun _ _ h => by cases h) []

end Sys2Proof.Machine
end

section
/-! SUPPORT. The port invariant by the frame that is open: what an idle port, a write frame and a read frame ask of the
slot; then every command, and the statement. -/

namespace Sys2Proof.Machine

variable {p : Port} {s t : State}

/-! ### The invariant of one port -/

/-- A slot that no read frame is bound to: not FRAME, its timer running in HELD alone, no lapse pending. -/
structure Snap.Unbound (x : Snap) : Prop where
  notFrame : ∀ g, x.state ≠ .frame g
  holdHeld : x.hold ≠ none → ∃ g, x.state = .held g
  notPending : x.lapsePending = false

theorem Snap.unbound_afterReset : Snap.afterReset.Unbound := ⟨nofun, fun h => absurd rfl h, rfl⟩

theorem Snap.unbound_lapsed : Snap.Unbound ⟨.lapsed, none, false⟩ := ⟨nofun, fun h => absurd rfl h, rfl⟩

theorem Snap.unbound_held (g : Gen) (hold : Timer) : Snap.Unbound ⟨.held g, hold, false⟩ := ⟨nofun, fun _ => ⟨g, rfl⟩, rfl⟩

/-- The invariant reads the interface's frame, stream and configuration, and its stall timer when idle. -/
theorem PortOk.of_iface {i : Iface} (h : PortOk p s) (hi : t.ifaces.get p = i) (hx : t.snaps.get p = s.snaps.get p)
    (hframe : i.frame = (s.ifaces.get p).frame) (hstream : i.stream = (s.ifaces.get p).stream)
    (hconfig : i.config = (s.ifaces.get p).config) (hstall : i.frame = .idle → i.stall = none) : PortOk p t where
  config := by simpa only [hi, hconfig] using h.config
  idleStopped := by simpa only [hi] using hstall
  buffer := by simpa only [hi, hframe] using h.buffer
  receivingLimit := by simpa only [hi, hframe] using h.receivingLimit
  sendingLimit := by simpa only [hi, hframe] using h.sendingLimit
  source := by simpa only [hi, hframe, hstream] using h.source
  view := by simpa only [hi, hframe, hx] using h.view
  frameSlot := by simpa only [hi, hframe, hx] using h.frameSlot
  holdHeld := by simpa only [hx] using h.holdHeld
  lapseHeld := by simpa only [hi, hframe, hx] using h.lapseHeld

theorem PortOk.of_get (h : PortOk p s) (hi : t.ifaces.get p = s.ifaces.get p) (hx : t.snaps.get p = s.snaps.get p) :
    PortOk p t :=
  h.of_iface hi hx rfl rfl rfl h.idleStopped

/-- Outside a read frame the slot is unbound. -/
theorem PortOk.unbound (h : PortOk p s) (hf : ∀ limit f, (s.ifaces.get p).frame ≠ .sending limit f) :
    (s.snaps.get p).Unbound where
  notFrame g hs := by
    obtain ⟨limit, f, result, hsending, -⟩ := h.frameSlot g hs
    exact hf limit f hsending
  holdHeld := h.holdHeld
  notPending := by
    rw [← Bool.not_eq_true]
    intro hl
    obtain ⟨-, -, limit, f, hsending⟩ := h.lapseHeld hl
    exact hf limit f hsending

/-- A port with no read frame open is in order when its slot is unbound. -/
theorem PortOk.of_unbound (config : (s.ifaces.get p).config.Ok)
    (idleStopped : (s.ifaces.get p).frame = .idle → (s.ifaces.get p).stall = none)
    (buffer : ∀ limit bytes, (s.ifaces.get p).frame = .receiving limit bytes → bytes.length ≤ declaredLength bytes)
    (receivingLimit : ∀ limit bytes, (s.ifaces.get p).frame = .receiving limit bytes →
      Config.minStall ≤ limit ∧ limit ≤ Config.maxStall)
    (hf : ∀ limit f, (s.ifaces.get p).frame ≠ .sending limit f) (hx : (s.snaps.get p).Unbound) : PortOk p s where
  config := config
  idleStopped := idleStopped
  buffer := buffer
  receivingLimit := receivingLimit
  sendingLimit limit f h := absurd h (hf limit f)
  source limit f h := absurd h (hf limit f)
  view limit f result view h := absurd h (hf limit f)
  frameSlot g h := absurd h (hx.notFrame g)
  holdHeld := hx.holdHeld
  lapseHeld h := by
    rw [hx.notPending] at h
    cases h

/-- An idle port in order. -/
structure PortIdle (p : Port) (s : State) : Prop where
  config : (s.ifaces.get p).config.Ok
  frame : (s.ifaces.get p).frame = .idle
  stall : (s.ifaces.get p).stall = none
  slot : (s.snaps.get p).Unbound

theorem PortIdle.ok (h : PortIdle p s) : PortOk p s :=
  .of_unbound h.config (fun _ => h.stall) (fun _ _ hf => by rw [h.frame] at hf; cases hf)
    (fun _ _ hf => by rw [h.frame] at hf; cases hf) (fun _ _ hf => by rw [h.frame] at hf; cases hf) h.slot

theorem PortOk.idle (h : PortOk p s) (hf : (s.ifaces.get p).frame = .idle) : PortIdle p s :=
  ⟨h.config, hf, h.idleStopped hf, h.unbound fun _ _ hs => by rw [hf] at hs; cases hs⟩

theorem PortIdle.of_get (h : PortIdle p s) (hi : t.ifaces.get p = s.ifaces.get p) (hx : (t.snaps.get p).Unbound) :
    PortIdle p t :=
  ⟨hi ▸ h.config, hi ▸ h.frame, hi ▸ h.stall, hx⟩

theorem PortIdle.of_eq (h : PortIdle p s) (hi : t.ifaces = s.ifaces) (hx : t.snaps = s.snaps) : PortIdle p t :=
  h.of_get (by rw [hi]) (by rw [hx]; exact h.slot)

/-! ### Every port -/

theorem PortsOk.of_eq (h : PortsOk s) (hi : t.ifaces = s.ifaces) (hx : t.snaps = s.snaps) : PortsOk t :=
  fun q => (h q).of_get (by rw [hi]) (by rw [hx])

/-- A change of one port's interface and slot keeps the others. -/
theorem PortsOk.update (h : PortsOk s) (hi : ∀ q, q ≠ p → t.ifaces.get q = s.ifaces.get q)
    (hx : ∀ q, q ≠ p → t.snaps.get q = s.snaps.get q) (hp : PortOk p t) : PortsOk t := by
  intro q
  by_cases hq : q = p
  · exact hq ▸ hp
  · exact (h q).of_get (hi q hq) (hx q hq)

/-! ### The end of a frame -/

/-- The state has changed in the interface and the slot of one port at most. -/
structure OnlyPort (p : Port) (s t : State) : Prop where
  ifaces : ∀ q, q ≠ p → t.ifaces.get q = s.ifaces.get q
  snaps : ∀ q, q ≠ p → t.snaps.get q = s.snaps.get q

theorem OnlyPort.refl (p : Port) (s : State) : OnlyPort p s s := ⟨fun _ _ => rfl, fun _ _ => rfl⟩

theorem OnlyPort.trans {u : State} (h : OnlyPort p s t) (h' : OnlyPort p t u) : OnlyPort p s u :=
  ⟨fun q hq => (h'.ifaces q hq).trans (h.ifaces q hq), fun q hq => (h'.snaps q hq).trans (h.snaps q hq)⟩

theorem OnlyPort.of_eq {u : State} (h : OnlyPort p s t) (hi : u.ifaces = t.ifaces) (hx : u.snaps = t.snaps) : OnlyPort p s u :=
  ⟨fun q hq => by rw [hi]; exact h.ifaces q hq, fun q hq => by rw [hx]; exact h.snaps q hq⟩

theorem onlyPort_setIface (p : Port) (s : State) (x : Iface) : OnlyPort p s (s.setIface p x) :=
  ⟨fun q hq => by simp [hq], fun _ _ => rfl⟩

theorem onlyPort_setSnap (p : Port) (s : State) (x : Snap) : OnlyPort p s (s.setSnap p x) :=
  ⟨fun _ _ => rfl, fun q hq => by simp [hq]⟩

theorem releaseBinding_ifaces (p : Port) (s : State) : (releaseBinding p s).ifaces = s.ifaces :=
  releaseBinding_of (P := fun t => t.ifaces = s.ifaces) (fun _ => rfl) (fun _ => rfl)

theorem releaseBinding_snaps (p : Port) (s : State) : (releaseBinding p s).snaps = s.snaps.set p Snap.afterReset :=
  releaseBinding_of (P := fun t => t.snaps = s.snaps.set p Snap.afterReset) (fun _ => rfl) (fun _ => rfl)

/-- A request taken on an idle port leaves it idle and the other ports alone. -/
theorem PortIdle.takingOf (h : PortIdle p s) (r : Request) (args : List Byte) :
    PortIdle p (takingOf r p args s).1 ∧ OnlyPort p s (takingOf r p args s).1 := by
  have stays : ∀ t : State, t.ifaces = s.ifaces → t.snaps = s.snaps → PortIdle p t ∧ OnlyPort p s t :=
    fun t hi hx => ⟨h.of_eq hi hx, (OnlyPort.refl p s).of_eq hi hx⟩
  have onlyReleased : ∀ u : State, OnlyPort p u (releaseBinding p u) := fun u =>
    ⟨fun q _ => by rw [releaseBinding_ifaces], fun q hq => by rw [releaseBinding_snaps, PortMap.get_set_of_ne _ _ hq]⟩
  refine takingOf_cases (P := fun t => PortIdle p t ∧ OnlyPort p s t) r args (stays s rfl rfl) (fun _ _ => stays _ rfl rfl)
    (fun x => ⟨?_, onlyPort_setIface p s _⟩) (fun config mask hc => ⟨?_, (onlyPort_setIface p s _).of_eq rfl rfl⟩)
    ⟨?_, (onlyReleased s).trans (onlyPort_setSnap p _ _)⟩ ⟨?_, onlyReleased s⟩ ?_ ⟨?_, ?_⟩ ?_ ?_
  · exact ⟨by simpa using h.config, by simpa using h.frame, by simpa using h.stall, h.slot⟩
  · exact ⟨by simpa [setConfig] using hc, by simpa [setConfig] using h.frame, by simpa [setConfig] using h.stall, h.slot⟩
  · refine h.of_get (t := (takeSnapOpen p s).1) (congrArg (fun m => PortMap.get m p) (releaseBinding_ifaces p s)) ?_
    simpa [takeSnapOpen] using Snap.unbound_held _ _
  · exact h.of_get (by rw [releaseBinding_ifaces]) (by simpa [releaseBinding_snaps] using Snap.unbound_afterReset)
  · intro hr
    obtain ⟨pool, queue, ctx, he⟩ := takingOf_txn_frame hr p args s
    exact stays _ (by rw [he]; rfl) (by rw [he]; rfl)
  · refine ⟨?_, ?_, ?_, ?_⟩
    · simp only [takePortReset, resetIface, State.setIface_ifaces, PortMap.get_set_self]
      exact ⟨by decide, by decide, by decide, by decide⟩
    · simp [takePortReset, resetIface, Iface.afterReset]
    · simp [takePortReset, resetIface, Iface.afterReset]
    · simpa [takePortReset, resetIface, resetNote, releaseBinding_snaps] using Snap.unbound_afterReset
  · obtain ⟨pool, queue, ctx, he⟩ := resetTxn_frame p s
    have hreset : OnlyPort p s (resetTxn p s) := (OnlyPort.refl p s).of_eq (by rw [he]; rfl) (by rw [he]; rfl)
    exact ((hreset.trans (onlyReleased _)).of_eq (u := resetNote p (releaseBinding p (resetTxn p s))) rfl rfl).trans
      (onlyPort_setIface p _ _)
  · unfold takeCheckpoint
    split
    · split
      · exact stays _ rfl rfl
      · split <;> exact stays _ rfl rfl
    · exact stays _ rfl rfl
  · unfold takeCheckpointCancel
    split
    · split
      · exact stays _ rfl rfl
      · split <;> exact stays _ rfl rfl
    · exact stays _ rfl rfl

/-- A write frame's end leaves its port idle. -/
theorem PortOk.endReceiving (h : PortOk p s) {limit : Nat} {bytes : List Byte}
    (hf : (s.ifaces.get p).frame = .receiving limit bytes) (buffer : List Byte) :
    PortIdle p (endReceiving p buffer s) ∧ OnlyPort p s (endReceiving p buffer s) := by
  have hslot : (s.snaps.get p).Unbound := h.unbound fun _ _ hs => by rw [hf] at hs; cases hs
  have hj : PortIdle p (judgedState p s) := by
    refine ⟨?_, ?_, ?_, hslot⟩
    · simpa [judgedIface] using h.config
    · simp [judgedIface]
    · simp [judgedIface]
  have reply : ∀ u code a, PortIdle p u → PortIdle p (writeReply p code s.g a u) := fun u code a hu =>
    ⟨by simpa [writeReply] using hu.config, by simpa [writeReply] using hu.frame, by simpa [writeReply] using hu.stall, hu.slot⟩
  rcases endReceiving_cases p buffer s with he | ⟨code, a, he⟩ | ⟨r, args, -, -, he⟩
  · rw [he]
    refine ⟨⟨?_, ?_, ?_, hslot⟩, onlyPort_setIface p s _⟩
    · simpa [closeFrame] using h.config
    · simp [closeFrame]
    · simp [closeFrame]
  · rw [he]
    exact ⟨reply _ code a hj, (onlyPort_setIface p s _).trans (onlyPort_setIface p _ _)⟩
  · obtain ⟨hi, ho⟩ := hj.takingOf r args
    rw [he]
    exact ⟨reply _ _ _ hi, ((onlyPort_setIface p s _).trans ho).trans (onlyPort_setIface p _ _)⟩

/-- A read frame's end leaves its port idle. -/
theorem PortOk.endSending (h : PortOk p s) : PortIdle p (endSending p s) ∧ OnlyPort p s (endSending p s) := by
  have closed : ∀ u : State, u.ifaces = (closeFrame p s).ifaces → (u.snaps.get p).Unbound → PortIdle p u := by
    intro u hu hx
    refine ⟨?_, ?_, ?_, hx⟩ <;> rw [hu]
    · simpa [closeFrame] using h.config
    · simp [closeFrame]
    · simp [closeFrame]
  refine endSending_of (P := fun t => PortIdle p t ∧ OnlyPort p s t) (fun g _ => ⟨closed _ rfl ?_, ?_⟩)
    (fun g _ _ => ⟨closed _ rfl ?_, ?_⟩) (fun hn hp => ⟨closed _ rfl ⟨hn, h.holdHeld, ?_⟩, onlyPort_setIface p s _⟩)
  · simpa [freeSlot] using Snap.unbound_afterReset
  · exact (onlyPort_setIface p s _).trans ((onlyPort_setSnap p _ Snap.afterReset).of_eq rfl rfl)
  · simpa [lapse] using Snap.unbound_lapsed
  · exact (onlyPort_setIface p s _).trans ((onlyPort_setSnap p _ ⟨.lapsed, none, false⟩).of_eq rfl rfl)
  · rcases hp with hp | hp
    · exact hp
    · rw [← Bool.not_eq_true]
      intro hl
      obtain ⟨-, ⟨g, hs⟩, -⟩ := h.lapseHeld hl
      exact hp g hs

theorem PortOk.endOpenFrame (h : PortOk p s) : PortIdle p (endOpenFrame p s) ∧ OnlyPort p s (endOpenFrame p s) := by
  unfold Machine.endOpenFrame
  split
  next hf => exact ⟨h.idle hf, OnlyPort.refl p s⟩
  next limit bytes hf => exact h.endReceiving hf bytes
  next => exact h.endSending

/-! ### The start of a frame -/

theorem PortOk.driveBus (h : PortOk p s) (b : BusOut) : PortOk p (driveBus p b s) :=
  h.of_iface (PortMap.get_set_self ..) rfl rfl rfl rfl h.idleStopped

theorem PortIdle.beginReceiving (h : PortIdle p s) : PortOk p (beginReceiving p s) := by
  have hi : (Machine.beginReceiving p s).ifaces.get p = { s.ifaces.get p with
      frame := .receiving (s.ifaces.get p).config.stallLimit [], stall := Timer.load (s.ifaces.get p).config.stallLimit } := by
    simp [Machine.beginReceiving]
  refine .of_unbound ?_ ?_ ?_ ?_ ?_ h.slot
  all_goals simp only [hi]
  · exact h.config
  · exact fun hf => by cases hf
  · intro limit bytes hf
    cases hf
    exact Nat.zero_le _
  · intro limit bytes hf
    cases hf
    exact ⟨h.config.stallLow, h.config.stallHigh⟩
  · exact fun limit f hf => by cases hf

/-- What a frame sends is buffered exactly without a stream. -/
theorem frameSource_eq_buffered_iff : frameSource p s = .buffered ↔ (s.ifaces.get p).stream = .closed := by
  refine ⟨fun h => ?_, frameSource_of_closed⟩
  unfold frameSource at h
  split at h
  next hs => exact hs
  all_goals cases h

theorem frameView_eq_some_iff {g : Gen} :
    frameView p s = some g ↔ (s.snaps.get p).state = .held g ∨ (s.snaps.get p).state = .frame g := by
  unfold frameView
  split
  all_goals
    next h => simp [h]

/-- A streaming frame that is not refused LAPSED has the slot's view. -/
theorem frameView_of_frameSource {result : Result} {view : Gen} (h : frameSource p s = .streaming result view)
    (hr : result ≠ .lapsed) : frameView p s = some view := by
  unfold frameSource at h
  split at h
  · cases h
  · cases h
    exact absurd rfl hr
  · cases h
    exact absurd rfl hr
  next hv =>
    cases h
    exact hv
  next hv =>
    cases h
    exact hv

/-- A stream over a slot with a view is sent at that view. -/
theorem frameSource_of_view {g : Gen} (hs : (s.ifaces.get p).stream ≠ .closed) (hv : frameView p s = some g) :
    ∃ result, frameSource p s = .streaming result g := by
  cases hst : (s.ifaces.get p).stream with
  | closed => exact absurd hst hs
  | read tag offset => exact ⟨_, frameSource_of_read hst hv⟩
  | scan position => exact ⟨_, frameSource_of_scan hst hv⟩

/-- A read frame that begins over a slot which step 2 of R171 has left. -/
theorem PortOk.of_sending {stall : Timer} {bus : BusOut} (config : (s.ifaces.get p).config.Ok)
    (notPending : (s.snaps.get p).lapsePending = false)
    (holdHeld : (s.snaps.get p).hold ≠ none → ∃ g, (s.snaps.get p).state = .held g)
    (hstream : ∀ g, (s.snaps.get p).state = .frame g → (s.ifaces.get p).stream ≠ .closed)
    (hi : t.ifaces.get p = { s.ifaces.get p with
      frame := .sending (s.ifaces.get p).config.stallLimit ⟨frameSource p s, 0, false⟩, stall := stall, bus := bus })
    (hx : t.snaps = s.snaps) : PortOk p t := by
  constructor
  all_goals simp only [hi, hx]
  case config => exact config
  case idleStopped => exact fun h => by cases h
  case buffer => exact fun _ _ h => by cases h
  case receivingLimit => exact fun _ _ h => by cases h
  case sendingLimit =>
    intro limit f h
    cases h
    exact ⟨config.stallLow, config.stallHigh⟩
  case source =>
    intro limit f h
    cases h
    exact frameSource_eq_buffered_iff
  case view =>
    intro limit f result view h hf hr
    cases h
    exact frameView_eq_some_iff.mp (frameView_of_frameSource hf hr)
  case frameSlot =>
    intro g hg
    obtain ⟨result, hr⟩ := frameSource_of_view (hstream g hg) (frameView_eq_some_iff.mpr (.inr hg))
    exact ⟨_, _, result, rfl, hr⟩
  case holdHeld => exact holdHeld
  case lapseHeld =>
    intro hl
    rw [notPending] at hl
    cases hl

theorem PortIdle.beginSending (h : PortIdle p s) : PortOk p (beginSending p s) ∧ OnlyPort p s (beginSending p s) := by
  obtain ⟨hheld, hfree, hlapsed⟩ := bindFrame_cases p ((s.ifaces.get p).stream != .closed) s (readFrameOpen_of_idle h.frame)
  have begins : ∀ u : State, bindFrame p ((s.ifaces.get p).stream != .closed) s = u → u.ifaces = s.ifaces → OnlyPort p s u →
      (u.snaps.get p).lapsePending = false → ((u.snaps.get p).hold ≠ none → ∃ g, (u.snaps.get p).state = .held g) →
      (∀ g, (u.snaps.get p).state = .frame g → (s.ifaces.get p).stream ≠ .closed) →
      PortOk p (Machine.beginSending p s) ∧ OnlyPort p s (Machine.beginSending p s) := by
    intro u hb hi ho hp hh hs
    simp only [Machine.beginSending, hb]
    exact ⟨PortOk.of_sending (s := u) (by rw [hi]; exact h.config) hp hh (by rw [hi]; exact hs) (PortMap.get_set_self ..) rfl,
      ho.trans (onlyPort_setIface p u _)⟩
  cases hs : (s.snaps.get p).state with
  | frame g => exact absurd hs (h.slot.notFrame g)
  | held g =>
    obtain ⟨hdue, hnot⟩ := hheld g hs
    by_cases hh : (s.snaps.get p).hold = some 0
    · refine begins _ (hdue hh) rfl ((onlyPort_setSnap p s ⟨.lapsed, none, false⟩).of_eq rfl rfl) ?_ ?_ ?_
      all_goals simp [lapse]
    · refine begins _ (hnot hh) rfl (onlyPort_setSnap p s _) ?_ ?_ ?_
      all_goals simp [h.slot.notPending, hs]
  | lapsed =>
    exact begins _ (hlapsed hs) rfl (OnlyPort.refl p s) h.slot.notPending h.slot.holdHeld
      (fun g hg => absurd hg (h.slot.notFrame g))
  | free =>
    have hstopped : (s.snaps.get p).hold = none := by
      by_contra hh
      obtain ⟨g, hg⟩ := h.slot.holdHeld hh
      rw [hs] at hg
      cases hg
    by_cases hst : (s.ifaces.get p).stream = .closed
    · refine begins s (by rw [hfree hs]; simp [hst]) rfl (OnlyPort.refl p s) h.slot.notPending h.slot.holdHeld
        (fun g hg => absurd hg (h.slot.notFrame g))
    · refine begins (s.setSnap p { s.snaps.get p with state := .frame s.g }) (by rw [hfree hs]; simp [hst]) rfl
        (onlyPort_setSnap p s _) ?_ ?_ (fun _ _ => hst)
      · simpa using h.slot.notPending
      · simp [hstopped]

/-! ### Every command -/

theorem OnlyPort.portsOk (ho : OnlyPort p s t) (h : PortsOk s) (hp : PortOk p t) : PortsOk t :=
  h.update ho.ifaces ho.snaps hp

theorem PortsOk.startFrame (h : PortsOk s) (p : Port) {begins : Port → State → State}
    (hb : ∀ u, PortIdle p u → PortOk p (begins p u) ∧ OnlyPort p u (begins p u)) (address : BitVec 7) :
    PortsOk (startFrame begins p address s) := by
  obtain ⟨hidle, ho⟩ := (h p).endOpenFrame
  obtain ⟨hp, hob⟩ := hb _ hidle
  simp only [Machine.startFrame]
  split
  · exact h
  · split
    · exact ((ho.trans hob).trans (onlyPort_setIface p _ _)).portsOk h (hp.driveBus _)
    · exact (ho.trans (onlyPort_setIface p _ _)).portsOk h (hidle.ok.driveBus _)

theorem PortOk.expireHold (h : PortOk p s) : PortOk p (expireHold p s) ∧ OnlyPort p s (expireHold p s) := by
  refine expireHold_of (P := fun t => PortOk p t ∧ OnlyPort p s t) ⟨h, OnlyPort.refl p s⟩ (fun g limit f hs _ hf => ⟨?_, ?_⟩)
    (fun g hs _ hf => ⟨?_, (onlyPort_setSnap p s ⟨.lapsed, none, false⟩).of_eq rfl rfl⟩)
  · have hx : (s.setSnap p ⟨.held g, none, true⟩).snaps.get p = ⟨.held g, none, true⟩ := by simp
    refine { h with view := ?_, frameSlot := ?_, holdHeld := ?_, lapseHeld := ?_ }
    all_goals simp only [hx]
    · intro limit f result view hsending hsource hr
      have hv := h.view limit f result view hsending hsource hr
      rwa [hs] at hv
    · exact nofun
    · exact fun hn => absurd rfl hn
    · exact fun _ => ⟨trivial, ⟨g, rfl⟩, limit, f, hf⟩
  · exact onlyPort_setSnap p s _
  · have hnot : ∀ limit f, (s.ifaces.get p).frame ≠ .sending limit f := by
      intro limit f hsending
      simp [readFrameOpen, hsending] at hf
    exact .of_unbound h.config h.idleStopped h.buffer h.receivingLimit hnot (by simpa [lapse] using Snap.unbound_lapsed)

/-- A byte sent leaves a stream open that was, and closed that was. -/
theorem frameByte_closed_iff (s : State) (i : Iface) (f : ReadFrame) :
    (frameByte s i f).2 = .closed ↔ i.stream = .closed := by
  have hstream : ∀ view k, (streamByte s i.stream view k).2 = .closed ↔ i.stream = .closed := by
    intro view k
    cases hst : i.stream with
    | closed => simp [streamByte]
    | read tag offset =>
      simp only [streamByte]
      split
      · simp
      · split <;> simp
    | scan position =>
      simp only [streamByte]
      split
      · simp
      · dsimp only
        split <;> simp
  unfold frameByte
  split
  · rfl
  · split
    · rfl
    · split
      · exact hstream _ _
      · rfl

theorem writeGrowth_append (buffer : List Byte) (b : Byte) : writeGrowth buffer ≤ writeGrowth (buffer ++ [b]) := by
  by_cases h5 : 5 < buffer.length
  · rw [writeGrowth, writeGrowth, List.getElem?_append_left h5]
  · rw [writeGrowth, List.getElem?_eq_none (Nat.not_lt.mp h5)]
    exact Nat.zero_le _

theorem fixedLength_pos (r : Request) : 1 ≤ fixedLength r := by
  cases r <;> decide

/-- A byte stored below the declared length stays within the declared length (R166, R167). -/
theorem length_append_le_declaredLength {buffer : List Byte} (h : buffer.length < declaredLength buffer) (b : Byte) :
    (buffer ++ [b]).length ≤ declaredLength (buffer ++ [b]) := by
  rw [List.length_append, List.length_singleton]
  cases buffer with
  | nil =>
    cases hc : requestOfCode b with
    | none => simp [declaredLength, hc]
    | some r =>
      have hpos := fixedLength_pos r
      by_cases hr : r = .write
      · subst hr
        simp only [List.nil_append, declaredLength, hc, List.length_nil]
        omega
      · simpa [declaredLength, hc] using hpos
  | cons c args =>
    refine Nat.le_trans h ?_
    cases hc : requestOfCode c with
    | none => simp [declaredLength, hc]
    | some r =>
      by_cases hr : r = .write
      · subst hr
        simp only [List.cons_append, declaredLength, hc]
        exact Nat.add_le_add_left (writeGrowth_append (c :: args) b) _
      · simp [declaredLength, hc]

theorem PortOk.received (h : PortOk p s) (b : Clocked Byte) :
    PortOk p (receiveClocked p b s) ∧ OnlyPort p s (receiveClocked p b s) := by
  refine receiveClocked_of (P := fun t => PortOk p t ∧ OnlyPort p s t) ⟨h, OnlyPort.refl p s⟩
    (fun limit buffer bus hf => ⟨h.of_iface (PortMap.get_set_self ..) rfl rfl rfl rfl (fun hi => by rw [hf] at hi; cases hi), onlyPort_setIface p s _⟩)
    (fun limit buffer x hf hroom => ⟨.of_unbound ?_ ?_ ?_ ?_ ?_ (h.unbound fun _ _ hs => by rw [hf] at hs; cases hs), onlyPort_setIface p s _⟩)
  all_goals simp only [State.setIface_ifaces, PortMap.get_set_self]
  · exact h.config
  · exact fun hi => by cases hi
  · intro limit' bytes hr
    cases hr
    exact length_append_le_declaredLength hroom x
  · intro limit' bytes hr
    cases hr
    exact h.receivingLimit limit buffer hf
  · exact fun _ _ hs => by cases hs

theorem PortOk.sent (h : PortOk p s) (b : Clocked Bool) : PortOk p (sendClocked p b s) ∧ OnlyPort p s (sendClocked p b s) := by
  refine sendClocked_of (P := fun t => PortOk p t ∧ OnlyPort p s t) ⟨h, OnlyPort.refl p s⟩
    (fun limit f bus hf => ⟨h.of_iface (PortMap.get_set_self ..) rfl rfl rfl rfl (fun hi => by rw [hf] at hi; cases hi), onlyPort_setIface p s _⟩)
    (fun limit f silent hf => ⟨?_, onlyPort_setIface p s _⟩)
  constructor
  all_goals simp only [State.setIface_ifaces, State.setIface_snaps, PortMap.get_set_self]
  case config => exact h.config
  case idleStopped => exact fun hi => by cases hi
  case buffer => exact fun _ _ hr => by cases hr
  case receivingLimit => exact fun _ _ hr => by cases hr
  case sendingLimit =>
    intro limit' f' hs
    cases hs
    exact h.sendingLimit limit f hf
  case source =>
    intro limit' f' hs
    cases hs
    exact (h.source limit f hf).trans (frameByte_closed_iff s _ f).symm
  case view =>
    intro limit' f' result view hs hsource hr
    cases hs
    exact h.view limit f result view hf hsource hr
  case frameSlot =>
    intro g hg
    obtain ⟨limit', f', result, hs, hsource⟩ := h.frameSlot g hg
    rw [hf] at hs
    cases hs
    exact ⟨_, _, result, rfl, hsource⟩
  case holdHeld => exact h.holdHeld
  case lapseHeld =>
    intro hl
    obtain ⟨hstop, hheld, -⟩ := h.lapseHeld hl
    exact ⟨hstop, hheld, _, _, rfl⟩

theorem installIntents_slots (p : Port) (done : List (Tag × Crc)) (intents : List Intent) (s : State) :
    (intents.foldl (installIntent p done) s).ifaces = s.ifaces ∧ (intents.foldl (installIntent p done) s).snaps = s.snaps := by
  induction intents generalizing s with
  | nil => exact ⟨rfl, rfl⟩
  | cons i rest ih => exact ih _

theorem deliverRecordEvents_slots (intents : List Intent) (s : State) :
    (intents.foldl (fun t i => deliverRecordEvent (recordEvent t.g i) t) s).ifaces = s.ifaces
      ∧ (intents.foldl (fun t i => deliverRecordEvent (recordEvent t.g i) t) s).snaps = s.snaps := by
  induction intents generalizing s with
  | nil => exact ⟨rfl, rfl⟩
  | cons i rest ih => exact ih _

theorem publishCommit_slots (c : Commit) (s : State) :
    (publishCommit c s).ifaces = s.ifaces ∧ (publishCommit c s).snaps = s.snaps := by
  have htold : ∀ u, (endCommitter c.port u).ifaces = u.ifaces ∧ (endCommitter c.port u).snaps = u.snaps := by
    intro u
    simp only [endCommitter]
    split <;> exact ⟨rfl, rfl⟩
  obtain ⟨hei, hes⟩ := deliverRecordEvents_slots (s.txns.get c.port).intents (endCommitter c.port
    (retireOnPublish ((s.txns.get c.port).intents.map Intent.tag)
      ((s.txns.get c.port).intents.foldl (installIntent c.port c.done) { s with g := s.g + 1#32 })))
  obtain ⟨hti, hts⟩ := htold (retireOnPublish ((s.txns.get c.port).intents.map Intent.tag)
      ((s.txns.get c.port).intents.foldl (installIntent c.port c.done) { s with g := s.g + 1#32 }))
  obtain ⟨hii, his⟩ := installIntents_slots c.port c.done (s.txns.get c.port).intents { s with g := s.g + 1#32 }
  exact ⟨(hei.trans hti).trans hii, (hes.trans hts).trans his⟩

theorem PortsOk.tickAll (h : PortsOk s) : PortsOk (tickAll s) := by
  unfold Machine.tickAll
  split
  · exact h
  · intro q
    have htick : ∀ t : Timer, t.tick ≠ none → t ≠ none := by
      rintro t ht rfl
      exact ht rfl
    constructor
    all_goals simp only [PortMap.get_mapPorts, Iface.tick, Snap.tick]
    case config => exact (h q).config
    case idleStopped => exact fun hf => by rw [(h q).idleStopped hf]; rfl
    case buffer => exact (h q).buffer
    case receivingLimit => exact (h q).receivingLimit
    case sendingLimit => exact (h q).sendingLimit
    case source => exact (h q).source
    case view => exact (h q).view
    case frameSlot => exact (h q).frameSlot
    case holdHeld => exact fun hh => (h q).holdHeld (htick _ hh)
    case lapseHeld =>
      intro hl
      obtain ⟨hstop, hheld, hsending⟩ := (h q).lapseHeld hl
      exact ⟨by rw [hstop]; rfl, hheld, hsending⟩

/-- Every command keeps every port in order. -/
theorem PortsOk.exec (h : PortsOk s) {c : Instr} (hc : exec c s = .next t) : PortsOk t := by
  have same : ∀ u : State, u.ifaces = s.ifaces → u.snaps = s.snaps → PortsOk u := fun u hi hx => h.of_eq hi hx
  have ends : ∀ r, PortsOk (endCheckpoint r s) := fun r => same _ rfl rfl
  have slots : ∀ slots, PortsOk (trySlots s slots) :=
    trySlots_of (same _ rfl rfl) (fun _ _ _ => same _ rfl rfl) (fun _ _ _ => same _ rfl rfl)
  refine exec_cases h ?endReceiving ?endSending ?writeStart ?readStart ?tick ?holdExpiry ?idleExpiry ?take ?digest
    ?publish ?reset ?resetEnd ?pollReady ?pollTimeout ?eraseDone ?eraseExpiry ?programDone ?programExpiry ?readback
    ?headers ?checked ?installed ?received ?sent hc
  case endReceiving =>
    intro p limit buffer hf held _
    obtain ⟨hi, ho⟩ := (h p).endReceiving hf held
    exact ho.portsOk h hi.ok
  case endSending =>
    intro p _ _ _
    obtain ⟨hi, ho⟩ := (h p).endSending
    exact ho.portsOk h hi.ok
  case writeStart => exact fun p a => h.startFrame p (fun u hu => ⟨hu.beginReceiving, onlyPort_setIface p u _⟩) a
  case readStart => exact fun p a => h.startFrame p (fun u hu => hu.beginSending) a
  case tick => exact h.tickAll
  case holdExpiry =>
    intro p
    obtain ⟨hp, ho⟩ := (h p).expireHold
    exact ho.portsOk h hp
  case idleExpiry => exact fun p => expireIdle_of h fun _ _ => same _ rfl rfl
  case take => exact takeHead_of h (fun _ _ _ _ _ _ => same _ rfl rfl) (fun _ _ _ _ _ => same _ rfl rfl)
  case digest => exact digestPage_of h fun _ _ => same _ rfl rfl
  case publish =>
    refine publishHead_of h fun c _ _ => ?_
    obtain ⟨hi, hx⟩ := publishCommit_slots c s
    exact same _ hi hx
  case reset => exact fun cause _ => portsOk_reset.of_eq rfl rfl
  case resetEnd =>
    intro _ _
    unfold deviceResetEnd
    split <;> exact same _ rfl rfl
  case pollReady =>
    refine fun left => pollReady_of h (fun _ _ => ?_) (fun _ _ _ _ => same _ rfl rfl) (fun _ c _ _ => ?_)
      (fun _ c _ _ => ?_)
    · unfold sendLoadRead
      split <;> exact same _ rfl rfl
    · unfold sendErase
      split <;> exact same _ rfl rfl
    · unfold sendProgram
      split <;> exact same _ rfl rfl
  case pollTimeout => exact pollTimeout_of h (fun _ _ _ => same _ rfl rfl) (fun _ _ _ _ _ _ => ends _)
  case eraseDone =>
    exact fun left => eraseDone_of h fun _ _ _ _ _ => eraseEnded_of (same _ rfl rfl) (fun _ _ _ => same _ rfl rfl)
      (fun _ _ _ => same _ rfl rfl) (fun _ _ _ => same _ rfl rfl)
  case eraseExpiry => exact expireErase_of h fun _ _ _ => ends _
  case programDone => exact fun left => programDone_of h fun _ _ _ _ => same _ rfl rfl
  case programExpiry => exact expireProgram_of h fun _ _ _ _ => ends _
  case readback =>
    exact fun _ => readbackDone_of h
      (fun _ _ _ _ _ => unitVerified_of h (fun _ _ _ _ => same _ rfl rfl) (fun _ _ _ _ => same _ rfl rfl)
        (fun _ => same _ rfl rfl))
      (fun _ _ _ _ _ => ends _)
  case headers => exact headersRead_of h (fun _ _ => same _ rfl rfl) (fun _ _ => slots)
  case checked =>
    exact entryChecked_of h (fun _ _ _ => slots) (fun _ _ _ _ _ => same _ rfl rfl) (fun _ _ _ => same _ rfl rfl)
  case installed =>
    have hinstalled : ∀ e u, installEntry e s = some u → u.ifaces = s.ifaces ∧ u.snaps = s.snaps := by
      intro e u hu
      obtain ⟨-, -, -, content, pool, -, rfl⟩ := installEntry_inv hu
      exact ⟨rfl, rfl⟩
    exact entryInstalled_of h (fun _ _ _ => same _ rfl rfl)
      (fun _ e u _ _ _ hu => (hinstalled e u hu).elim fun hi hx => same _ hi hx)
      (fun _ e u _ _ _ hu => (hinstalled e u hu).elim fun hi hx => same _ hi hx)
  case received =>
    intro p b
    obtain ⟨hp, ho⟩ := (h p).received b
    exact ho.portsOk h hp
  case sent =>
    intro p b
    obtain ⟨hp, ho⟩ := (h p).sent b
    exact ho.portsOk h hp

/-- Settles O6: a frame's end leaves its port idle with its slot unbound, its start and its bytes keep the bond between
frame and slot, and nothing else reaches interfaces and slots. -/
theorem portsStayInOrder : Obligations.PortsStayInOrder := by
  intro s t h hstep
  rcases step_cases hstep with rfl | ⟨c, rest, -, hc⟩
  · exact h.ports
  · exact PortsOk.exec (s := { s with pending := rest }) (h.ports.of_eq rfl rfl) hc

end Sys2Proof.Machine
end

section
/-! SUPPORT. What the transaction requests can leave, each said once: the five ways in which an accepted staging request
changes the intent list and the pool, and the steps of a context. -/

namespace Sys2Proof.Machine

/-! ### Accepted staging requests (R67 to R79) -/

/-- The change of a staged body that a WRITE or a RESIZE asks for, its arguments in range for the staged length. -/
inductive ClaimChange (length : Nat) : (Pool → StagedBody → Option (Pool × StagedBody)) → Prop
  | write (offset : Nat) (data : List Byte) (nonempty : data ≠ []) (short : data.length ≤ 64) (within : offset ≤ length)
      (room : offset + data.length ≤ 2048) : ClaimChange length (writeBody offset data)
  | resize (asked : Nat) (room : asked ≤ 2048) : ClaimChange length (resizeBody asked)

/-- What an accepted staging request makes of the state, its idle timer aside: a new entry without a body, another
operation without a body for an entry whose body is released, a CREATED entry dropped with its body released, or a
granted claim in the entry of its tag. -/
inductive Staged (p : Port) (s : State) : State → Prop
  | appended (tag : Tag) (op : IntentOp) (record : recordTag tag = true)
      (absent : findIntent (s.txns.get p).intents tag = none) (room : (s.txns.get p).intents.length < 16)
      (bodiless : op.body? = none)
      (live : ∀ base, op.base? = some base → ∃ v, lookup s.directory tag = .liveHead v ∧ v.gen = base) :
      Staged p s (withIntents p ((s.txns.get p).intents ++ [⟨tag, op⟩]) s)
  | changed (tag : Tag) (i : Intent) (op : IntentOp) (found : findIntent (s.txns.get p).intents tag = some i)
      (bodiless : op.body? = none) (base : op.base? = i.op.base?) :
      Staged p s (withIntents p (changeIntent (s.txns.get p).intents tag op) { s with pool := releaseOp p i.op s.pool })
  | removed (tag : Tag) (i : Intent) (found : findIntent (s.txns.get p).intents tag = some i) :
      Staged p s (withIntents p (removeIntent (s.txns.get p).intents tag) { s with pool := releaseOp p i.op s.pool })
  | claimed (tag : Tag) (start : Start) (change : Pool → StagedBody → Option (Pool × StagedBody)) (pool : Pool)
      (body : StagedBody) (record : recordTag tag = true) (found : findStart p tag s = .ok start)
      (asked : ClaimChange start.length change)
      (granted : stagedClaim p s.pool start.body (change (start.pool s.pool) start.body) = .ok (pool, body)) :
      Staged p s (withIntents p (start.intentsAfter tag body (s.txns.get p).intents) { s with pool := pool })

variable {p : Port} {tag : Tag} {s t : State}

theorem staged_of_create {kind writers persist : Byte} (h : actCreate p tag kind writers persist s = .ok t) :
    Staged p s t := by
  simp only [actCreate] at h
  split at h
  next htag =>
    split at h
    next k w q _ _ _ =>
      split at h
      · cases h
      · cases h
      next habsent =>
        split at h
        · cases h
        next hroom =>
          split at h
          · cases h
          all_goals
            cases h
            refine .appended tag _ htag habsent (Nat.lt_of_not_le hroom) ?_ (fun base hb => by cases hb)
            cases k <;> rfl
    next => cases h
  · cases h

theorem releaseOp_of_bodiless {op : IntentOp} (h : op.body? = none) (p : Port) (pool : Pool) : releaseOp p op pool = pool := by
  simp only [releaseOp, h]

theorem staged_of_add {delta : Int} (h : actAdd p tag delta s = .ok t) : Staged p s t := by
  simp only [actAdd] at h
  split at h
  next htag =>
    split at h
    next itag a d hi =>
      cases h
      exact .changed tag _ _ hi rfl rfl
    next itag base d hi =>
      cases h
      exact .changed tag _ _ hi rfl rfl
    · cases h
    · cases h
    · cases h
    next habsent =>
      split at h
      · cases h
      next hroom =>
        split at h
        · cases h
        · cases h
        next v hl =>
          split at h
          · split at h
            · cases h
              exact .appended tag _ htag habsent (Nat.lt_of_not_le hroom) rfl
                (fun base hb => ⟨v, hl, Option.some_inj.mp hb⟩)
            · cases h
          · cases h
          · cases h
  · cases h

theorem staged_of_delete (h : actDelete p tag s = .ok t) : Staged p s t := by
  simp only [actDelete] at h
  split at h
  next htag =>
    split at h
    next itag base body hi =>
      cases h
      exact .changed tag _ _ hi rfl rfl
    next itag base d hi =>
      cases h
      exact .changed tag _ _ hi rfl rfl
    next itag a staged hi =>
      cases h
      exact .removed tag _ hi
    · cases h
    next habsent =>
      split at h
      · cases h
      next hroom =>
        split at h
        · cases h
        · cases h
        next v hl =>
          split at h
          · split at h
            · cases h
              exact .appended tag _ htag habsent (Nat.lt_of_not_le hroom) rfl
                (fun base hb => ⟨v, hl, Option.some_inj.mp hb⟩)
            · cases h
          · cases h
  · cases h

theorem staged_of_claim {start : Start} {change : Pool → StagedBody → Option (Pool × StagedBody)} (record : recordTag tag = true)
    (found : findStart p tag s = .ok start) (asked : ClaimChange start.length change)
    (h : claimBody p tag start change s = .ok t) : Staged p s t := by
  cases hc : stagedClaim p s.pool start.body (change (start.pool s.pool) start.body) with
  | error d =>
    rw [claimBody_of_error hc] at h
    cases h
  | ok x =>
    obtain ⟨pool, body⟩ := x
    rw [claimBody_of_ok hc] at h
    cases h
    exact .claimed tag start change pool body record found asked hc

theorem staged_of_write {offset count : Nat} {data : List Byte} (hlen : 1 ≤ count ∧ count ≤ 64 → count ≤ data.length)
    (h : actWrite p tag offset count data s = .ok t) : Staged p s t := by
  obtain ⟨⟨record, hlow, hhigh⟩, start, found, ⟨hwithin, hroom⟩, hclaim⟩ := actWrite_inv h
  have hcount := hlen ⟨hlow, hhigh⟩
  have htake : (data.take count).length = count := by simpa using hcount
  exact staged_of_claim record found (.write offset _ (fun e => by rw [e] at htake; simp at htake; omega) (by omega) hwithin
    (by omega)) hclaim

theorem staged_of_resize {length : Nat} (h : actResize p tag length s = .ok t) : Staged p s t := by
  obtain ⟨⟨record, hlen⟩, start, found, hclaim⟩ := actResize_inv h
  exact staged_of_claim record found (.resize length hlen) hclaim

/-- A complete WRITE has brought the bytes that its count announces (R167). -/
theorem write_data_length {args : List Byte} (h : Complete .write args) :
    1 ≤ (argByte args 4).toNat ∧ (argByte args 4).toNat ≤ 64 → (argByte args 4).toNat ≤ (args.drop 5).length := by
  intro hcount
  rw [Complete, declaredLength_write] at h
  have hgrowth : writeGrowth (requestCode .write :: args) = (argByte args 4).toNat := by
    unfold writeGrowth
    rw [List.getElem?_cons_succ]
    cases hb : args[4]? with
    | none =>
      have hz : argByte args 4 = 0#8 := by rw [argByte, List.getD_eq_getElem?_getD, hb]; rfl
      simp [hz] at hcount
    | some b =>
      have hb' : argByte args 4 = b := by rw [argByte, List.getD_eq_getElem?_getD, hb]; rfl
      rw [hb'] at hcount ⊢
      exact if_pos hcount
  rw [hgrowth] at h
  rw [List.length_drop]
  omega

/-! ### The steps of a context -/

variable {P : State → Prop}

theorem staging_of {act : Except Refused State} (stays : P s)
    (noted : (s.txns.get p).state = .opened → ∀ idle d, P (s.setTxn p { s.txns.get p with idle := idle, refusal := d }))
    (staged : (s.txns.get p).state = .opened → ∀ t, act = .ok t → P (noteStaging p .none t)) : P (staging p act s).1 := by
  unfold staging
  split
  next => exact stays
  next ho =>
    split
    next t => exact staged ho t rfl
    next => exact noted ho _ _
    next => exact noted ho _ _
  all_goals exact stays

/-- What a complete request of the transaction unit can leave. -/
theorem takingOf_txn_of {r : Request} (hr : r ∈ txnRequests) {args : List Byte} (complete : Complete r args) (stays : P s)
    (begins : (s.txns.get p).state = .none → ∀ idle, P (s.setTxn p ⟨.opened, [], idle, .none, .none⟩))
    (noted : (s.txns.get p).state = .opened → ∀ idle d, P (s.setTxn p { s.txns.get p with idle := idle, refusal := d }))
    (staged : (s.txns.get p).state = .opened → ∀ t, Staged p s t → P (noteStaging p .none t))
    (emptied : (s.txns.get p).state = .opened → (s.txns.get p).intents = [] →
      P (s.setTxn p { s.txns.get p with state := .none, idle := none, outcome := .committed s.g }))
    (queued : (s.txns.get p).state = .opened → (s.txns.get p).intents ≠ [] →
      P ({ s with commitQueue := s.commitQueue ++ [p] }.setTxn p { s.txns.get p with state := .queued, idle := none }))
    (aborted : (s.txns.get p).state = .opened → P (discardTxn p .aborted s))
    (withdrawn : (s.txns.get p).state = .queued → P (discardTxn p .withdrawn (leaveQueue p s))) :
    P (takingOf r p args s).1 := by
  cases r with
  | beginTxn =>
    show P (takeBegin p s).1
    simp only [takeBegin]
    split
    next h => exact begins h _
    next h => exact noted h _ _
    all_goals exact stays
  | create => exact staging_of stays noted fun h t ha => staged h t (staged_of_create ha)
  | write => exact staging_of stays noted fun h t ha => staged h t (staged_of_write (write_data_length complete) ha)
  | resize => exact staging_of stays noted fun h t ha => staged h t (staged_of_resize ha)
  | add => exact staging_of stays noted fun h t ha => staged h t (staged_of_add ha)
  | delete => exact staging_of stays noted fun h t ha => staged h t (staged_of_delete ha)
  | commit =>
    show P (takeCommit p s).1
    simp only [takeCommit]
    split
    next => exact stays
    next h =>
      split
      next he => exact emptied h (List.isEmpty_iff.mp he)
      next he => exact queued h (mt List.isEmpty_iff.mpr he)
    all_goals exact stays
  | abort =>
    show P (takeAbort p s).1
    simp only [takeAbort]
    split
    next => exact stays
    next h => exact aborted h
    next h => exact withdrawn h
    all_goals exact stays
  | txnStatus =>
    show P (takeTxnStatus p s).1
    simp only [takeTxnStatus]
    split
    next h => exact noted h _ _
    all_goals exact stays
  | _ => simp [txnRequests] at hr

/-- What PORT_RESET makes of a context and its queue entry (R92). -/
theorem resetTxn_of (hc : ContextsOk s)
    (detached : (s.txns.get p).state = .applying ∨ (s.txns.get p).state = .detached →
      P (s.setTxn p ⟨.detached, (s.txns.get p).intents, none, .none, .none⟩))
    (stays : (s.txns.get p).state = .none → P (s.setTxn p ⟨.none, [], none, .none, .none⟩))
    (discarded : (s.txns.get p).state = .opened ∨ (s.txns.get p).state = .queued →
      P ((discardTxn p .none (leaveQueue p s)).setTxn p ⟨.none, [], none, .none, .none⟩)) : P (resetTxn p s) := by
  have hout : (s.txns.get p).state ≠ .queued → leaveQueue p s = s := fun hq => by
    have hf : s.commitQueue.filter (fun q => q != p) = s.commitQueue :=
      List.filter_eq_self.mpr fun q hmem => bne_iff_ne.mpr fun e => hq ((hc.queued p).mp (e ▸ hmem))
    simp only [leaveQueue, hf]
  cases hs : (s.txns.get p).state with
  | none =>
    have hempty := (hc.contexts p).noneEmpty hs
    have := stays hs
    simpa [resetTxn, hs, hempty] using this
  | opened =>
    have := discarded (.inl hs)
    rw [hout (by simp [hs])] at this
    simpa [resetTxn, hs, discardTxn] using this
  | queued =>
    have := discarded (.inr hs)
    simpa [resetTxn, hs, discardTxn] using this
  | applying => exact resetTxn_of_taken (.inl hs) ▸ detached (.inl hs)
  | detached => exact resetTxn_of_taken (.inr hs) ▸ detached (.inr hs)

end Sys2Proof.Machine
end

section
/-! SUPPORT. Contexts, commit queue and engine: the invariant by the port that the engine commits for, the steps of one
context, every command, and the statement. -/

namespace Sys2Proof.Machine

variable {p : Port} {s t : State}

/-! ### The invariant by the engine's port -/

/-- The port whose transaction the engine commits. -/
def Engine.port? : Engine → Option Port
  | .idle => none
  | .digesting c => some c.port

/-- A context that the engine has taken (Table 4-1). -/
def CtxState.taken (x : CtxState) : Prop := x = .applying ∨ x = .detached

theorem ContextsOk.committer (h : ContextsOk s) (q : Port) :
    (s.txns.get q).state.taken ↔ s.engine.port? = some q := by
  cases he : s.engine with
  | idle =>
    obtain ⟨ha, hd⟩ := h.idle he q
    exact iff_of_false (fun ht => ht.elim ha hd) (fun hn => by cases hn)
  | digesting c =>
    refine (h.digesting c he q).trans ⟨fun e => congrArg some e.symm, fun e => (Option.some_inj.mp e).symm⟩

theorem ContextsOk.of_parts (contexts : ∀ q, (t.txns.get q).Ok) (queueOnce : t.commitQueue.Nodup)
    (queued : ∀ q, q ∈ t.commitQueue ↔ (t.txns.get q).state = .queued)
    (committer : ∀ q, (t.txns.get q).state.taken ↔ t.engine.port? = some q)
    (quiet : t.image.device = .loading → t.engine = .idle ∧ ∀ q, (t.txns.get q).state = .none)
    (resetLoading : t.inReset = true → t.image.device = .loading) : ContextsOk t where
  contexts := contexts
  queueOnce := queueOnce
  queued := queued
  idle he q := by
    have hn : ¬ (t.txns.get q).state.taken := fun ht => by
      have := (committer q).mp ht
      rw [he] at this
      cases this
    exact ⟨fun ha => hn (.inl ha), fun hd => hn (.inr hd)⟩
  digesting c he q := by
    refine (committer q).trans ?_
    rw [he]
    exact ⟨fun e => (Option.some_inj.mp e).symm, fun e => congrArg some e.symm⟩
  quiet := quiet
  resetLoading := resetLoading

/-- The invariant reads the contexts' states, the queue, the engine's port, the device state and device reset. -/
theorem ContextsOk.of_states (h : ContextsOk s) (contexts : ∀ q, (t.txns.get q).Ok)
    (states : ∀ q, (t.txns.get q).state = (s.txns.get q).state) (queue : t.commitQueue = s.commitQueue)
    (engine : t.engine.port? = s.engine.port?) (device : t.image.device = s.image.device) (reset : t.inReset = s.inReset) :
    ContextsOk t := by
  refine .of_parts contexts (queue ▸ h.queueOnce) (fun q => by rw [queue, states]; exact h.queued q)
    (fun q => by rw [engine, states]; exact h.committer q) (fun hd => ?_) (fun hr => device ▸ h.resetLoading (reset ▸ hr))
  obtain ⟨he, hn⟩ := h.quiet (device ▸ hd)
  refine ⟨?_, fun q => (states q).trans (hn q)⟩
  rw [he] at engine
  cases hte : t.engine with
  | idle => rfl
  | digesting c =>
    rw [hte] at engine
    cases engine

theorem ContextsOk.of_txns (h : ContextsOk s) (txns : t.txns = s.txns) (queue : t.commitQueue = s.commitQueue)
    (engine : t.engine.port? = s.engine.port?) (device : t.image.device = s.image.device) (reset : t.inReset = s.inReset) :
    ContextsOk t :=
  h.of_states (fun q => txns ▸ h.contexts q) (fun q => by rw [txns]) queue engine device reset

theorem ContextsOk.of_eq (h : ContextsOk s) (txns : t.txns = s.txns) (queue : t.commitQueue = s.commitQueue)
    (engine : t.engine = s.engine) (device : t.image.device = s.image.device) (reset : t.inReset = s.inReset) :
    ContextsOk t :=
  h.of_txns txns queue (by rw [engine]) device reset

/-! ### One context changes -/

/-- A property of every port's context after one context's change. -/
theorem setTxn_forall {x : Context} {Q : Port → Context → Prop} (hp : Q p x) (h : ∀ q, q ≠ p → Q q (s.txns.get q)) :
    ∀ q, Q q ((s.setTxn p x).txns.get q) := by
  intro q
  by_cases hq : q = p
  · subst hq
    simpa using hp
  · simpa [hq] using h q hq

/-- A context that keeps its state. -/
theorem ContextsOk.setTxn_same (h : ContextsOk s) {x : Context} (hok : x.Ok) (hx : x.state = (s.txns.get p).state) :
    ContextsOk (s.setTxn p x) :=
  h.of_states (setTxn_forall (Q := fun _ y => y.Ok) hok fun q _ => h.contexts q)
    (setTxn_forall (Q := fun q y => y.state = (s.txns.get q).state) hx fun _ _ => rfl) rfl rfl rfl rfl

/-- A context that is neither queued nor taken. -/
def CtxState.plain (x : CtxState) : Prop := x = .none ∨ x = .opened

theorem CtxState.plain.not_queued {x : CtxState} (h : x.plain) : x ≠ .queued := by
  rcases h with rfl | rfl <;> decide

theorem CtxState.plain.not_taken {x : CtxState} (h : x.plain) : ¬ x.taken := by
  rcases h with rfl | rfl <;> rintro (h | h) <;> cases h

/-- A context that stays out of the queue and the engine. -/
theorem ContextsOk.setTxn_plain (h : ContextsOk s) {x : Context} (hok : x.Ok) (hs : (s.txns.get p).state.plain)
    (hx : x.state.plain) (hquiet : s.image.device = .ready ∨ x.state = .none) : ContextsOk (s.setTxn p x) := by
  have hqueue : p ∉ s.commitQueue := fun hm => hs.not_queued ((h.queued p).mp hm)
  have hengine : s.engine.port? ≠ some p := fun he => hs.not_taken ((h.committer p).mpr he)
  refine .of_parts (setTxn_forall (Q := fun _ y => y.Ok) hok fun q _ => h.contexts q) h.queueOnce
    (setTxn_forall (Q := fun q y => q ∈ s.commitQueue ↔ y.state = .queued) (iff_of_false hqueue hx.not_queued)
      fun q _ => h.queued q)
    (setTxn_forall (Q := fun q y => y.state.taken ↔ s.engine.port? = some q) (iff_of_false hx.not_taken hengine)
      fun q _ => h.committer q)
    (fun hd => ?_) h.resetLoading
  obtain ⟨he, hn⟩ := h.quiet hd
  refine ⟨he, setTxn_forall (Q := fun _ y => y.state = .none) ?_ fun q _ => hn q⟩
  rcases hquiet with hr | hx
  · have : s.image.device = .loading := hd
    rw [hr] at this
    cases this
  · exact hx

/-! ### Intent lists -/

/-- An intent list in order: at most 16 entries, of different record tags (R62, R63). -/
structure IntentsOk (intents : List Intent) : Prop where
  room : intents.length ≤ 16
  tagsDiffer : (intents.map Intent.tag).Nodup
  tags : ∀ i ∈ intents, recordTag i.tag = true

theorem Context.Ok.intentsOk {c : Context} (h : c.Ok) : IntentsOk c.intents := ⟨h.room, h.tagsDiffer, h.tags⟩

theorem findIntent_eq_none_iff {intents : List Intent} {tag : Tag} :
    findIntent intents tag = none ↔ ∀ i ∈ intents, i.tag ≠ tag := by
  simp [findIntent]

theorem findIntent_mem {intents : List Intent} {tag : Tag} {i : Intent} (h : findIntent intents tag = some i) :
    i ∈ intents ∧ i.tag = tag :=
  ⟨List.mem_of_find?_eq_some h, by simpa using List.find?_some h⟩

theorem IntentsOk.append {intents : List Intent} (h : IntentsOk intents) {tag : Tag} (op : IntentOp)
    (absent : findIntent intents tag = none) (room : intents.length < 16) (record : recordTag tag = true) :
    IntentsOk (intents ++ [⟨tag, op⟩]) where
  room := by simpa using room
  tagsDiffer := by
    rw [List.map_append]
    refine h.tagsDiffer.append (List.nodup_singleton _) ?_
    simpa [List.disjoint_singleton] using findIntent_eq_none_iff.mp absent
  tags i hi := by
    rcases List.mem_append.mp hi with hi | hi
    · exact h.tags i hi
    · obtain rfl := List.mem_singleton.mp hi
      exact record

theorem changeIntent_tags (intents : List Intent) (tag : Tag) (op : IntentOp) :
    (changeIntent intents tag op).map Intent.tag = intents.map Intent.tag := by
  rw [changeIntent, List.map_map]
  refine List.map_congr_left fun i _ => ?_
  simp only [Function.comp]
  split <;> rfl

theorem IntentsOk.change {intents : List Intent} (h : IntentsOk intents) (tag : Tag) (op : IntentOp) :
    IntentsOk (changeIntent intents tag op) where
  room := by simpa [changeIntent] using h.room
  tagsDiffer := by simpa only [changeIntent_tags] using h.tagsDiffer
  tags i hi := by
    have hm : i.tag ∈ (changeIntent intents tag op).map Intent.tag := List.mem_map_of_mem hi
    rw [changeIntent_tags] at hm
    obtain ⟨j, hj, he⟩ := List.mem_map.mp hm
    exact he ▸ h.tags j hj

theorem IntentsOk.remove {intents : List Intent} (h : IntentsOk intents) (tag : Tag) : IntentsOk (removeIntent intents tag) where
  room := (List.length_filter_le ..).trans h.room
  tagsDiffer := h.tagsDiffer.sublist (List.filter_sublist.map _)
  tags i hi := h.tags i (List.mem_of_mem_filter hi)

/-- A first touch finds no entry of its tag and room for one. -/
theorem findStart_firstTouch {tag : Tag} {base : Gen} {length : Nat} {pages : List PageNo}
    (h : findStart p tag s = .ok (.firstTouch base length pages)) :
    findIntent (s.txns.get p).intents tag = none ∧ (s.txns.get p).intents.length < 16
      ∧ ∃ attrs crc, lookup s.directory tag = .liveHead ⟨base, .blob attrs length pages crc⟩ := by
  simp only [findStart] at h
  split at h
  · cases h
  · cases h
  · cases h
  · cases h
  · cases h
  next habsent =>
    split at h
    · cases h
    next hroom =>
      split at h
      · cases h
      · cases h
      next v hl =>
        split at h
        next attrs length' pages' crc hv =>
          split at h
          · cases h
            refine ⟨habsent, Nat.lt_of_not_le hroom, attrs, crc, ?_⟩
            rw [hl, ← hv]
          · cases h
        · cases h
        · cases h

theorem IntentsOk.after {tag : Tag} {start : Start} (h : IntentsOk (s.txns.get p).intents) (record : recordTag tag = true)
    (found : findStart p tag s = .ok start) (body : StagedBody) :
    IntentsOk (start.intentsAfter tag body (s.txns.get p).intents) := by
  cases start with
  | entry op old => exact h.change tag _
  | firstTouch base length pages =>
    obtain ⟨absent, room, -⟩ := findStart_firstTouch found
    exact h.append _ absent room record

/-- An accepted staging request leaves an intent list in order and the rest of the state but the pool. -/
theorem Staged.intents (hst : Staged p s t) (h : IntentsOk (s.txns.get p).intents) :
    ∃ intents pool, IntentsOk intents ∧ t = withIntents p intents { s with pool := pool } := by
  cases hst with
  | appended tag op record absent room => exact ⟨_, s.pool, h.append op absent room record, rfl⟩
  | changed tag i op => exact ⟨_, _, h.change tag op, rfl⟩
  | removed tag i => exact ⟨_, _, h.remove tag, rfl⟩
  | claimed tag start change pool body record found => exact ⟨_, pool, h.after record found body, rfl⟩

/-! ### Every command -/

/-- An open context with another intent list, idle timer and refusal detail. -/
theorem Context.Ok.opened {c : Context} (h : c.Ok) (hs : c.state = .opened) {intents : List Intent} (hi : IntentsOk intents)
    (idle : Timer) (refusal : StagingDetail) : Context.Ok { c with intents := intents, idle := idle, refusal := refusal } where
  room := hi.room
  tagsDiffer := hi.tagsDiffer
  tags := hi.tags
  noneEmpty hn := by
    rw [hs] at hn
    cases hn
  frozenFull hf := by
    rw [hs] at hf
    rcases hf with hf | hf | hf <;> cases hf
  idleOpen _ := hs
  noOutcome := h.noOutcome

theorem IntentsOk.opened {intents : List Intent} (hi : IntentsOk intents) (idle : Timer) (refusal : StagingDetail) :
    Context.Ok ⟨.opened, intents, idle, refusal, .none⟩ :=
  ⟨hi.room, hi.tagsDiffer, hi.tags, (fun hn => by cases hn), (fun hf => by rcases hf with hf | hf | hf <;> cases hf),
    fun _ => rfl, fun _ => rfl⟩

theorem IntentsOk.nil : IntentsOk [] := ⟨Nat.zero_le _, List.nodup_nil, fun _ hi => absurd hi List.not_mem_nil⟩

/-- What a staging request leaves, all in all: pool, intents, idle timer and refusal detail. -/
theorem noteStaging_withIntents (p : Port) (d : StagingDetail) (intents : List Intent) (pool : Pool) (s : State) :
    noteStaging p d (withIntents p intents { s with pool := pool }) = { s with pool := pool }.setTxn p
      { s.txns.get p with intents := intents, idle := loadIdle p s, refusal := d } := by
  simp [noteStaging, withIntents, loadIdle]

/-- A context that has ended. -/
theorem Context.Ok.ended (refusal : StagingDetail) (outcome : TxnOutcome) : Context.Ok ⟨.none, [], none, refusal, outcome⟩ :=
  ⟨Nat.zero_le _, List.nodup_nil, fun _ hi => absurd hi List.not_mem_nil, fun _ => rfl,
    (fun hf => by rcases hf with hf | hf | hf <;> cases hf), fun hn => absurd rfl hn, fun hn => absurd rfl hn⟩

/-- A context in the queue or the engine, with its intents. -/
theorem Context.Ok.frozen {c : Context} (h : c.Ok) (hn : c.intents ≠ []) {x : CtxState} (hx : x ≠ .none)
    (refusal : StagingDetail) : Context.Ok ⟨x, c.intents, none, refusal, .none⟩ :=
  ⟨h.room, h.tagsDiffer, h.tags, fun e => absurd e hx, fun _ => hn, fun e => absurd rfl e, fun _ => rfl⟩

/-- The end of a transaction that is neither queued nor taken. -/
theorem ContextsOk.discardTxn (h : ContextsOk s) (hs : (s.txns.get p).state.plain) (o : TxnOutcome) :
    ContextsOk (discardTxn p o s) := by
  rw [discardTxn_eq]
  have hp : ContextsOk { s with pool := releaseBodies p s.pool (s.txns.get p).intents } := h.of_eq rfl rfl rfl rfl rfl
  exact hp.setTxn_plain (.ended _ o) hs (.inl rfl) (.inr rfl)

/-- A queued context leaves the queue and ends. -/
theorem ContextsOk.withdraw (h : ContextsOk s) {pool : Pool} (refusal : StagingDetail) (o : TxnOutcome)
    (hs : ¬ (s.txns.get p).state.taken) :
    ContextsOk ({ s with pool := pool, commitQueue := s.commitQueue.filter (fun q => q != p) }.setTxn p
      ⟨.none, [], none, refusal, o⟩) := by
  refine .of_parts (setTxn_forall (Q := fun _ y => y.Ok) (.ended _ o) fun q _ => h.contexts q) (h.queueOnce.filter _)
    (setTxn_forall (Q := fun q y => q ∈ s.commitQueue.filter (fun q => q != p) ↔ y.state = .queued) (by simp) fun q hq => ?_)
    (setTxn_forall (Q := fun q y => y.state.taken ↔ s.engine.port? = some q) ?_ fun q _ => h.committer q)
    (fun hd => ?_) h.resetLoading
  · rw [List.mem_filter, ← h.queued q]
    exact and_iff_left (bne_iff_ne.mpr hq)
  · exact iff_of_false (CtxState.plain.not_taken (.inl rfl)) fun he => hs ((h.committer p).mpr he)
  · obtain ⟨he, hn⟩ := h.quiet hd
    exact ⟨he, setTxn_forall (Q := fun _ y => y.state = .none) rfl fun q _ => hn q⟩

/-- An open context with intents joins the queue. -/
theorem ContextsOk.enqueue (h : ContextsOk s) (hd : s.image.device = .ready) (hs : (s.txns.get p).state = .opened)
    (hi : (s.txns.get p).intents ≠ []) : ContextsOk ({ s with commitQueue := s.commitQueue ++ [p] }.setTxn p
      { s.txns.get p with state := .queued, idle := none }) := by
  have hplain : (s.txns.get p).state.plain := .inr hs
  have hout : p ∉ s.commitQueue := fun hm => hplain.not_queued ((h.queued p).mp hm)
  have hok : Context.Ok ⟨.queued, (s.txns.get p).intents, none, (s.txns.get p).refusal, (s.txns.get p).outcome⟩ := by
    rw [(h.contexts p).noOutcome (by rw [hs]; nofun)]
    exact (h.contexts p).frozen hi (x := .queued) nofun _
  refine .of_parts (setTxn_forall (Q := fun _ y => y.Ok) hok fun q _ => h.contexts q)
    (h.queueOnce.append (List.nodup_singleton _) (by simpa using hout))
    (setTxn_forall (Q := fun q y => q ∈ s.commitQueue ++ [p] ↔ y.state = .queued) (by simp) fun q hq => ?_)
    (setTxn_forall (Q := fun q y => y.state.taken ↔ s.engine.port? = some q) ?_ fun q _ => h.committer q)
    (fun hl => ?_) h.resetLoading
  · rw [← h.queued q]
    simp [hq]
  · exact iff_of_false (fun ht => ht.elim nofun nofun) fun he => hplain.not_taken ((h.committer p).mpr he)
  · have : s.image.device = .loading := hl
    rw [hd] at this
    cases this

theorem ContextsOk.takingOf_txn (h : ContextsOk s) (hd : s.image.device = .ready) {r : Request} (hr : r ∈ txnRequests)
    {args : List Byte} (complete : Complete r args) : ContextsOk (takingOf r p args s).1 := by
  have hp := h.contexts p
  refine takingOf_txn_of hr complete h (fun hs idle => ?_) (fun hs idle d => ?_) (fun hs t hst => ?_) (fun hs hi => ?_)
    (fun hs hi => ?_) (fun hs => h.discardTxn (.inr hs) _) (fun hs => ?_)
  · refine h.setTxn_plain ?_ (.inl hs) (.inr rfl) (.inl hd)
    exact IntentsOk.nil.opened idle .none
  · exact h.setTxn_same (hp.opened hs hp.intentsOk idle d) rfl
  · obtain ⟨intents, pool, hi, rfl⟩ := hst.intents hp.intentsOk
    have hpool : ContextsOk { s with pool := pool } := h.of_eq rfl rfl rfl rfl rfl
    rw [noteStaging_withIntents]
    exact hpool.setTxn_same (p := p) (hp.opened hs hi (loadIdle p s) .none) rfl
  · refine h.setTxn_plain (x := ⟨.none, (s.txns.get p).intents, none, (s.txns.get p).refusal, .committed s.g⟩) ?_ (.inr hs)
      (.inl rfl) (.inr rfl)
    rw [hi]
    exact .ended _ _
  · exact h.enqueue hd hs hi
  · exact h.withdraw _ _ (by rw [hs]; rintro (ht | ht) <;> cases ht)

theorem ContextsOk.resetTxn (h : ContextsOk s) (p : Port) : ContextsOk (resetTxn p s) := by
  refine resetTxn_of h (fun hs => ?_) (fun hs => h.setTxn_plain (.ended _ _) (.inl hs) (.inl rfl) (.inr rfl)) (fun hs => ?_)
  · have hn : (s.txns.get p).intents ≠ [] := (h.contexts p).frozenFull (.inr hs)
    have hengine : s.engine.port? = some p := (h.committer p).mp hs
    refine .of_parts (setTxn_forall (Q := fun _ y => y.Ok) ((h.contexts p).frozen hn (x := .detached) nofun _) fun q _ => h.contexts q) h.queueOnce
      (setTxn_forall (Q := fun q y => q ∈ s.commitQueue ↔ y.state = .queued) ?_ fun q _ => h.queued q)
      (setTxn_forall (Q := fun q y => y.state.taken ↔ s.engine.port? = some q) (iff_of_true (.inr rfl) hengine)
        fun q _ => h.committer q)
      (fun hd => ?_) h.resetLoading
    · refine iff_of_false (fun hm => ?_) nofun
      have hq := (h.queued p).mp hm
      rcases hs with hs | hs <;> rw [hs] at hq <;> cases hq
    · have he : s.engine = .idle := (h.quiet hd).1
      rw [he] at hengine
      cases hengine
  · have hnot : ¬ (s.txns.get p).state.taken := by
      rcases hs with hs | hs <;> rw [hs] <;> rintro (ht | ht) <;> cases ht
    have := h.withdraw (pool := releaseBodies p s.pool (s.txns.get p).intents) .none .none hnot
    simpa [Machine.discardTxn, leaveQueue] using this

theorem Engine.passSlots_port? (e : Engine) (n : Nat) : (e.passSlots n).port? = e.port? := by
  cases e <;> rfl

/-- Snapshots, interfaces and notification state are none of the invariant's concern, and requests keep it. -/
theorem takesRequests_contexts : TakesRequests ContextsOk where
  iface _ _ _ h := h.of_eq rfl rfl rfl rfl rfl
  notes _ _ h := h.of_eq rfl rfl rfl rfl rfl
  hold _ _ _ _ h := h.of_eq rfl rfl rfl rfl rfl
  bind _ _ _ _ _ h := h.of_eq rfl rfl rfl rfl rfl
  release _ _ _ _ h := h.of_txns rfl rfl (Engine.passSlots_port? ..) rfl rfl
  txn _ _ hd _ hr _ complete h := h.takingOf_txn hd hr complete
  resetTxn _ p _ h := h.resetTxn p
  checkpoint _ _ _ _ h := h.of_eq rfl rfl rfl rfl rfl
  cancel _ _ _ _ _ h := h.of_txns rfl rfl (Engine.passSlots_port? ..) rfl rfl

theorem ContextsOk.endCheckpoint (h : ContextsOk s) (r : ImageResult) : ContextsOk (endCheckpoint r s) :=
  h.of_txns rfl rfl (Engine.passSlots_port? ..) rfl rfl

/-- The end of the load, which finds nothing under way. -/
theorem ContextsOk.endLoad (h : ContextsOk s) (hr : s.inReset = false) (r : LoadResult) (current : Option ImageSlot)
    (sequence : Gen) : ContextsOk (endLoad r current sequence s) := by
  refine .of_parts h.contexts h.queueOnce h.queued h.committer (fun hd => by cases hd) (fun hreset => ?_)
  have : s.inReset = true := hreset
  rw [hr] at this
  cases this

theorem ContextsOk.tickAll (h : ContextsOk s) : ContextsOk (tickAll s) := by
  unfold Machine.tickAll
  split
  · exact h
  · refine h.of_states (fun q => ?_) (fun q => ?_) rfl rfl rfl rfl
    all_goals simp only [PortMap.get_mapPorts, Context.tick]
    have hq := h.contexts q
    refine ⟨hq.room, hq.tagsDiffer, hq.tags, hq.noneEmpty, hq.frozenFull, fun hi => hq.idleOpen ?_, hq.noOutcome⟩
    intro hn
    rw [hn] at hi
    exact hi rfl

/-- The head of the queue, which TAKE takes or rejects. -/
theorem ContextsOk.takeHead (h : ContextsOk s) : ContextsOk (takeHead s) := by
  have hhead : ∀ {p rest}, s.commitQueue = p :: rest → (s.txns.get p).state = .queued ∧ p ∉ rest ∧ rest.Nodup
      ∧ ∀ q, q ≠ p → (q ∈ rest ↔ (s.txns.get q).state = .queued) := by
    intro p rest hq
    have hnodup := h.queueOnce
    rw [hq, List.nodup_cons] at hnodup
    refine ⟨(h.queued p).mp (by simp [hq]), hnodup.1, hnodup.2, fun q hne => ?_⟩
    rw [← h.queued q, hq, List.mem_cons, or_iff_right hne]
  have hidle : s.engine = .idle → ∀ q, ¬ (s.txns.get q).state.taken := fun he q ht => by
    have := (h.committer q).mp ht
    rw [he] at this
    cases this
  refine takeHead_of h (fun p rest o he hq _ => ?_) (fun p rest he hq _ => ?_)
  · obtain ⟨hs, hout, hnodup, hothers⟩ := hhead hq
    have hrest : s.commitQueue.filter (fun q => q != p) = rest := by
      rw [hq, List.filter_cons_of_neg (by simp)]
      exact List.filter_eq_self.mpr fun q hm => bne_iff_ne.mpr fun e => hout (e ▸ hm)
    have := h.withdraw (p := p) (pool := releaseBodies p s.pool (s.txns.get p).intents) (s.txns.get p).refusal o (hidle he p)
    rw [hrest] at this
    refine this.of_eq ?_ rfl rfl rfl rfl
    simp [rejectTxn, Machine.discardTxn]
  · obtain ⟨hs, hout, hnodup, hothers⟩ := hhead hq
    have hn : (s.txns.get p).intents ≠ [] := (h.contexts p).frozenFull (.inl hs)
    have hok : Context.Ok ⟨.applying, (s.txns.get p).intents, (s.txns.get p).idle, (s.txns.get p).refusal, (s.txns.get p).outcome⟩ := by
      have hidle : (s.txns.get p).idle = none := by
        by_contra hi
        have := (h.contexts p).idleOpen hi
        rw [hs] at this
        cases this
      rw [hidle, (h.contexts p).noOutcome (by rw [hs]; nofun)]
      exact (h.contexts p).frozen hn (x := .applying) nofun _
    refine .of_parts (setTxn_forall (Q := fun _ y => y.Ok) hok fun q _ => h.contexts q) hnodup
      (setTxn_forall (Q := fun q y => q ∈ rest ↔ y.state = .queued) (iff_of_false hout nofun) hothers)
      (setTxn_forall (Q := fun q y => y.state.taken ↔ some p = some q) (iff_of_true (.inl rfl) rfl) fun q hq => ?_)
      (fun hd => ?_) h.resetLoading
    · exact iff_of_false (hidle he q) fun e => hq (Option.some_inj.mp e).symm
    · have := (h.quiet hd).2 p
      rw [hs] at this
      cases this

/-! ### PUBLISH as one change of the state (R110, R113 to R116) -/

/-- The directory after the intents have installed their versions, in list order (R110). -/
def installAll (gen : Gen) (done : List (Tag × Crc)) (dir : List DirSlot) (intents : List Intent) : List DirSlot :=
  intents.foldl (fun dir i => install dir i.tag ⟨gen, installedContent dir done i⟩) dir

/-- The pool after an intent has handed its staged list over (R34). -/
def handOverOp (p : Port) (op : IntentOp) (pool : Pool) : Pool :=
  match op.body? with
  | none => pool
  | some body => pool.handOver p body

/-- The pool after the intents have handed their staged lists over, in list order (R34). -/
def handOverAll (p : Port) (pool : Pool) (intents : List Intent) : Pool :=
  intents.foldl (fun pool i => handOverOp p i.op pool) pool

theorem installIntents_eq (p : Port) (done : List (Tag × Crc)) (intents : List Intent) (s : State) :
    intents.foldl (installIntent p done) s = { s with
      directory := installAll s.g done s.directory intents, pool := handOverAll p s.pool intents } := by
  induction intents generalizing s with
  | nil => rfl
  | cons i rest ih => exact ih _

theorem deliverRecordEvents_eq (intents : List Intent) (s : State) : ∃ notes,
    intents.foldl (fun t i => deliverRecordEvent (recordEvent t.g i) t) s = { s with notes := notes } := by
  induction intents generalizing s with
  | nil => exact ⟨s.notes, rfl⟩
  | cons i rest ih =>
    obtain ⟨notes, h⟩ := ih (deliverRecordEvent (recordEvent s.g i) s)
    exact ⟨notes, h⟩

/-- The outcome record of a committer after its publish (R114). -/
def committerOutcome (ctx : Context) (gen : Gen) : TxnOutcome :=
  if ctx.state = .applying then .committed gen else ctx.outcome

theorem endCommitter_eq (p : Port) (s : State) : ∃ notes, endCommitter p s
    = { s with notes := notes }.setTxn p { s.txns.get p with outcome := committerOutcome (s.txns.get p) s.g } := by
  have still : (s.txns.get p).state ≠ .applying → s = { s with notes := s.notes }.setTxn p
      { s.txns.get p with outcome := committerOutcome (s.txns.get p) s.g } := by
    intro h
    rw [committerOutcome, if_neg h]
    exact (State.setTxn_get s p).symm
  simp only [endCommitter]
  split
  next hs =>
    refine ⟨(deliver p (commitDone (.committed s.g)) flagTxnEnded s).notes, ?_⟩
    rw [committerOutcome, if_pos hs]
    rfl
  next hs => exact ⟨s.notes, still (by rw [hs]; nofun)⟩
  next hs => exact ⟨s.notes, still (by rw [hs]; nofun)⟩
  next hs => exact ⟨s.notes, still (by rw [hs]; nofun)⟩
  next hs => exact ⟨s.notes, still (by rw [hs]; nofun)⟩

/-- The state on which the retirement of a publish runs: G raised, the versions installed, the lists handed over. -/
def installedState (c : Commit) (s : State) : State := { s with
  g := s.g + 1#32
  directory := installAll (s.g + 1#32) c.done s.directory (s.txns.get c.port).intents
  pool := handOverAll c.port s.pool (s.txns.get c.port).intents }

/-- The store that a publish leaves. -/
def publishedState (c : Commit) (s : State) : State :=
  retireOnPublish ((s.txns.get c.port).intents.map Intent.tag) (installedState c s)

theorem publishCommit_eq (c : Commit) (s : State) : ∃ notes, publishCommit c s = { s with
    g := s.g + 1#32
    directory := (publishedState c s).directory
    pool := (publishedState c s).pool
    engine := .idle
    notes := notes }.setTxn c.port ⟨.none, [], none, (s.txns.get c.port).refusal,
      committerOutcome (s.txns.get c.port) (s.g + 1#32)⟩ := by
  have hinstalled : (s.txns.get c.port).intents.foldl (installIntent c.port c.done) { s with g := s.g + 1#32 }
      = installedState c s := installIntents_eq ..
  obtain ⟨told, htold⟩ := endCommitter_eq c.port (publishedState c s)
  obtain ⟨notes, hnotes⟩ := deliverRecordEvents_eq (s.txns.get c.port).intents (endCommitter c.port (publishedState c s))
  refine ⟨notes, ?_⟩
  have hretired : retireOnPublish ((s.txns.get c.port).intents.map Intent.tag) (installedState c s) = publishedState c s := rfl
  have htxns : (publishedState c s).txns = s.txns := rfl
  have hg : (publishedState c s).g = s.g + 1#32 := rfl
  rw [publishCommit]
  dsimp only
  rw [hinstalled, hretired, hnotes, htold]
  simp only [State.setTxn, htxns, hg, PortMap.set_set, PortMap.get_set_self]
  rfl

/-- PUBLISH ends the commit and its context (R113, R116). -/
theorem ContextsOk.publishCommit (h : ContextsOk s) {c : Commit} (he : s.engine = .digesting c) :
    ContextsOk (publishCommit c s) := by
  have hengine : s.engine.port? = some c.port := by rw [he]; rfl
  have htaken := (h.committer c.port).mpr hengine
  have hothers : ∀ q, q ≠ c.port → ¬ (s.txns.get q).state.taken := fun q hq ht => by
    have := (h.committer q).mp ht
    rw [hengine] at this
    exact hq (Option.some_inj.mp this).symm
  obtain ⟨notes, heq⟩ := publishCommit_eq c s
  rw [heq]
  refine .of_parts (setTxn_forall (Q := fun _ y => y.Ok) (.ended _ _) fun q _ => h.contexts q) h.queueOnce
    (setTxn_forall (Q := fun q y => q ∈ s.commitQueue ↔ y.state = .queued) (iff_of_false (fun hm => ?_) nofun)
      fun q _ => h.queued q)
    (setTxn_forall (Q := fun q y => y.state.taken ↔ (none : Option Port) = some q)
      (iff_of_false (CtxState.plain.not_taken (.inl rfl)) nofun) fun q hq => iff_of_false (hothers q hq) nofun)
    (fun hd => ⟨rfl, setTxn_forall (Q := fun _ y => y.state = .none) rfl fun q _ => (h.quiet hd).2 q⟩) h.resetLoading
  have hq := (h.queued _).mp hm
  rcases htaken with ht | ht <;> rw [ht] at hq <;> cases hq

/-- Every command keeps contexts, queue and engine in order. -/
theorem ContextsOk.exec (h : ContextsOk s) (himage : ImageOk s) {c : Instr} (hc : exec c s = .next t) : ContextsOk t := by
  have same : ∀ u : State, u.txns = s.txns → u.commitQueue = s.commitQueue → u.engine = s.engine →
      u.image.device = s.image.device → u.inReset = s.inReset → ContextsOk u := fun u a b c d e => h.of_eq a b c d e
  have ends : ∀ u r, ContextsOk u → ContextsOk (Machine.endCheckpoint r u) := fun _ r hu => hu.endCheckpoint r
  have running : s.image.loader ≠ .idle → s.inReset = false := by
    intro hl
    rw [← Bool.not_eq_true]
    intro hr
    obtain ⟨-, hidle, -⟩ := himage.inReset hr
    exact hl hidle
  have slots : s.image.loader ≠ .idle → ∀ slots, ContextsOk (trySlots s slots) := fun hl =>
    trySlots_of (h.endLoad (running hl) _ _ _) (fun _ _ _ => h.endLoad (running hl) _ _ _)
      (fun _ _ _ => same _ rfl rfl rfl rfl rfl)
  refine takesRequests_contexts.exec h ?tick ?idleExpiry ?take ?digest ?publish ?reset ?resetEnd ?pollReady ?pollTimeout
    ?eraseDone ?eraseExpiry ?programDone ?programExpiry ?readback ?headers ?checked ?installed hc
  case tick => exact h.tickAll
  case idleExpiry =>
    exact fun p => expireIdle_of h fun hs _ => (h.discardTxn (.inr hs) .timedOut).of_eq rfl rfl rfl rfl rfl
  case take => exact h.takeHead
  case digest =>
    refine digestPage_of h fun c he => h.of_txns rfl rfl ?_ rfl rfl
    have hport : (c.digestPage s.pool).port = c.port := by
      simp only [Commit.digestPage]
      split
      · rfl
      · split
        · rfl
        · split <;> rfl
    rw [he]
    exact congrArg some hport
  case publish => exact publishHead_of h fun c he _ => h.publishCommit he
  case reset => exact fun cause _ => contextsOk_reset.of_eq rfl rfl rfl rfl rfl
  case resetEnd =>
    intro _ _
    unfold deviceResetEnd
    split
    next hr =>
      refine .of_parts h.contexts h.queueOnce h.queued h.committer (fun _ => h.quiet (h.resetLoading hr)) (fun hr => ?_)
      cases hr
    next => exact h
  case pollReady =>
    refine fun left => pollReady_of h (fun _ _ => ?_) (fun _ _ _ _ => same _ rfl rfl rfl rfl rfl) (fun _ c _ _ => ?_)
      (fun _ c _ _ => ?_)
    · unfold sendLoadRead
      split <;> exact same _ rfl rfl rfl rfl rfl
    · unfold sendErase
      split <;> exact same _ rfl rfl rfl rfl rfl
    · unfold sendProgram
      split <;> exact same _ rfl rfl rfl rfl rfl
  case pollTimeout =>
    exact pollTimeout_of h (fun _ _ hl => h.endLoad (running (by rw [hl]; nofun)) _ _ _) (fun _ _ _ _ _ _ => ends _ _ h)
  case eraseDone =>
    exact fun left => eraseDone_of h fun _ _ _ _ _ => eraseEnded_of (same _ rfl rfl rfl rfl rfl)
      (fun _ _ _ => same _ rfl rfl rfl rfl rfl) (fun _ _ _ => same _ rfl rfl rfl rfl rfl)
      (fun _ _ _ => same _ rfl rfl rfl rfl rfl)
  case eraseExpiry => exact expireErase_of h fun _ _ _ => ends _ _ h
  case programDone => exact fun left => programDone_of h fun _ _ _ _ => same _ rfl rfl rfl rfl rfl
  case programExpiry => exact expireProgram_of h fun _ _ _ _ => ends _ _ h
  case readback =>
    exact fun _ => readbackDone_of h
      (fun _ _ _ _ _ => unitVerified_of h (fun _ _ _ _ => same _ rfl rfl rfl rfl rfl)
        (fun _ _ _ _ => same _ rfl rfl rfl rfl rfl) (fun _ => ends _ _ (same _ rfl rfl rfl rfl rfl)))
      (fun _ _ _ _ _ => ends _ _ h)
  case headers =>
    exact headersRead_of h (fun hl _ => h.endLoad (running (by rw [hl]; nofun)) _ _ _)
      (fun hl _ => slots (by rw [hl]; nofun))
  case checked =>
    exact entryChecked_of h (fun _ hl _ => slots (by rw [hl]; nofun)) (fun _ _ _ _ _ => same _ rfl rfl rfl rfl rfl)
      (fun _ _ _ => same _ rfl rfl rfl rfl rfl)
  case installed =>
    have hinstalled : ∀ e u, installEntry e s = some u → ContextsOk u ∧ u.inReset = s.inReset := by
      intro e u hu
      obtain ⟨-, -, -, content, pool, -, rfl⟩ := installEntry_inv hu
      exact ⟨same _ rfl rfl rfl rfl rfl, rfl⟩
    refine entryInstalled_of h (fun _ hl _ => h.endLoad (running (by rw [hl]; nofun)) _ _ _) (fun _ e u _ _ _ hu => ?_)
      (fun _ e u hl _ _ hu => ?_)
    · exact (hinstalled e u hu).1.of_eq rfl rfl rfl rfl rfl
    · obtain ⟨hu, hr⟩ := hinstalled e u hu
      exact hu.endLoad (hr.trans (running (by rw [hl]; nofun))) _ _ _

/-- Settles O7: a context enters the queue with its first COMMIT, the engine with TAKE, and leaves both with its end. -/
theorem contextsStayInOrder : Obligations.ContextsStayInOrder := by
  intro s t h hstep
  rcases step_cases hstep with rfl | ⟨c, rest, -, hc⟩
  · exact h.contexts
  · exact ContextsOk.exec (s := { s with pending := rest }) (h.contexts.of_eq rfl rfl rfl rfl rfl)
      { h.image with } hc

end Sys2Proof.Machine
end

section
/-! SUPPORT. What a retirement check keeps of a chain: a part of it in order, with its newest version, behind which
generations see what they saw. -/

namespace Sys2Proof.Machine

/-! ### Chains of falling generations -/

/-- Generations fall along a chain (R13). -/
abbrev falls (chain : List Version) : Prop := chain.Pairwise (fun newer older => older.gen < newer.gen)

section
variable {chain kept : List Version} {view : Gen} {v : Version}

/-- The version visible at a generation is the one of the highest generation up to it. -/
theorem versionAt_eq_some_iff_of_falls (hfall : falls chain) : versionAt chain view = some v ↔
    v ∈ chain ∧ v.gen ≤ view ∧ ∀ w ∈ chain, w.gen ≤ view → w.gen ≤ v.gen := by
  rw [versionAt_eq_some_iff]
  constructor
  · rintro ⟨newer, older, rfl, hv, hn⟩
    refine ⟨by simp, hv, fun w hw hle => ?_⟩
    rcases List.mem_append.mp hw with hw | hw
    · exact absurd hle (BitVec.not_le.mpr (hn w hw))
    · rcases List.mem_cons.mp hw with rfl | hw
      · exact BitVec.le_refl _
      · exact BitVec.le_of_lt ((List.pairwise_cons.mp (List.pairwise_append.mp hfall).2.1).1 w hw)
  · rintro ⟨hmem, hv, hmax⟩
    obtain ⟨newer, older, rfl⟩ := List.append_of_mem hmem
    refine ⟨newer, older, rfl, hv, fun w hw => ?_⟩
    have hlt := (List.pairwise_append.mp hfall).2.2 w hw v List.mem_cons_self
    refine BitVec.not_le.mp fun hle => ?_
    exact absurd (hmax w (by simp [hw]) hle) (BitVec.not_le.mpr hlt)

theorem versionAt_eq_none_iff : versionAt chain view = none ↔ ∀ w ∈ chain, view < w.gen := by
  simp [versionAt, BitVec.not_le]

/-- A part of a chain that holds the visible version shows it. -/
theorem versionAt_of_sublist (hfall : falls chain) (hsub : kept.Sublist chain)
    (hkeep : ∀ v, versionAt chain view = some v → v ∈ kept) : versionAt kept view = versionAt chain view := by
  cases hv : versionAt chain view with
  | none =>
    rw [versionAt_eq_none_iff] at hv ⊢
    exact fun w hw => hv w (hsub.subset hw)
  | some v =>
    obtain ⟨-, hle, hmax⟩ := (versionAt_eq_some_iff_of_falls hfall).mp hv
    exact (versionAt_eq_some_iff_of_falls (hfall.sublist hsub)).mpr
      ⟨hkeep v hv, hle, fun w hw => hmax w (hsub.subset hw)⟩

theorem visibleAt_congr {chain' : List Version} (h : versionAt chain' view = versionAt chain view) :
    visibleAt chain' view = visibleAt chain view := by
  rw [visibleAt, visibleAt, h]

theorem visibleAt_eq_none (h : ∀ v, versionAt chain view = some v → v.isTombstone = true) : visibleAt chain view = none := by
  unfold visibleAt
  split
  next => rfl
  next v hv => exact if_pos (h v hv)

end

/-! ### Windows seen -/

theorem chainSeen_mono {gens gens' : List Gen} (hsub : ∀ g ∈ gens, g ∈ gens') {chain : List Version} (h : chainSeen gens chain) :
    chainSeen gens' chain := by
  induction chain with
  | nil => trivial
  | cons newer rest ih =>
    cases rest with
    | nil => trivial
    | cons v older =>
      obtain ⟨⟨g, hg, hw⟩, hrest⟩ := h
      exact ⟨⟨g, hsub g hg, hw⟩, ih hrest⟩

/-- A newer newest version closes a wider window. -/
theorem chainSeen_raise {gens : List Gen} {v newer : Version} {older : List Version} (h : chainSeen gens (v :: older))
    (hle : v.gen ≤ newer.gen) : chainSeen gens (newer :: older) := by
  cases older with
  | nil => trivial
  | cons w rest =>
    obtain ⟨⟨g, hg, hw, hlt⟩, hrest⟩ := h
    exact ⟨⟨g, hg, hw, Gen.lt_of_lt_of_le hlt hle⟩, hrest⟩

theorem keptBehind_sublist (gens : List Gen) (newest : Version) (older : List Version) :
    (keptBehind gens (newest :: older)).Sublist older := by
  induction older generalizing newest with
  | nil => exact List.Sublist.slnil
  | cons v older ih =>
    rw [keptBehind_cons]
    split
    · exact (ih v).cons_cons v
    · exact (ih v).cons v

theorem keptBehind_perm (gens : List Gen) (newest : Version) (older : List Version) :
    older.Perm (keptBehind gens (newest :: older) ++ goneBehind gens (newest :: older)) := by
  induction older generalizing newest with
  | nil => exact List.Perm.nil
  | cons v older ih =>
    rw [keptBehind_cons, goneBehind_cons]
    split
    · exact (ih v).cons v
    · exact ((ih v).cons v).trans List.perm_middle.symm

/-- What a sweep keeps is seen. -/
theorem chainSeen_keptBehind (gens : List Gen) {newest : Version} {older : List Version} (hfall : falls (newest :: older)) :
    chainSeen gens (newest :: keptBehind gens (newest :: older)) := by
  induction older generalizing newest with
  | nil => trivial
  | cons v older ih =>
    obtain ⟨hlt, hfall'⟩ := List.pairwise_cons.mp hfall
    rw [keptBehind_cons]
    split
    next hw => exact ⟨windowSeen_iff.mp hw, ih hfall'⟩
    next => exact chainSeen_raise (ih hfall') (BitVec.le_of_lt (hlt v List.mem_cons_self))

/-- A version that some generation sees behind a newer one is kept. -/
theorem mem_keptBehind {gens : List Gen} {newest v : Version} {older : List Version} (hfall : falls (newest :: older))
    {view : Gen} (hview : view ∈ gens) (hnew : view < newest.gen) (hv : versionAt older view = some v) :
    v ∈ keptBehind gens (newest :: older) := by
  induction older generalizing newest with
  | nil => cases hv
  | cons w older ih =>
    obtain ⟨-, hfall'⟩ := List.pairwise_cons.mp hfall
    rw [keptBehind_cons]
    by_cases hle : w.gen ≤ view
    · have hwv : w = v := by simpa [versionAt, hle] using hv
      subst hwv
      rw [if_pos (windowSeen_iff.mpr ⟨view, hview, hle, hnew⟩)]
      exact List.mem_cons_self
    · have hv' : versionAt older view = some v := by simpa [versionAt, hle] using hv
      have := ih hfall' (BitVec.not_le.mp hle) hv'
      split
      · exact List.mem_cons_of_mem _ this
      · exact this

/-! ### What a check does to one chain -/

/-- A check in order on a chain: it keeps a part in order, divides the chain, keeps the newest version unless it empties
a chain whose newest is a tombstone, and leaves no lone tombstone. -/
structure Retires (chain : List Version) (x : List Version × List Version) : Prop where
  sublist : x.1.Sublist chain
  divides : chain.Perm (x.1 ++ x.2)
  newest : x.1 ≠ [] → x.1.head? = chain.head?
  emptied : x.1 = [] → ∀ v, chain.head? = some v → v.isTombstone = true
  notLone : ∀ v, x.1 = [v] → v.isTombstone = false

/-- Retiring the lone tombstone after versions behind the newest have gone. -/
theorem Retires.of_loneTombstone {newest : Version} {older kept gone : List Version} (hsub : kept.Sublist older)
    (hdiv : older.Perm (kept ++ gone)) : Retires (newest :: older) (retireLoneTombstone (newest :: kept, gone)) := by
  rw [retireLoneTombstone_eq]
  split
  next h =>
    obtain ⟨rfl, ht⟩ := h
    refine ⟨List.nil_sublist _, ?_, fun hn => absurd rfl hn, fun _ v hv => by cases hv; exact ht, nofun⟩
    exact (hdiv.cons newest).trans (List.perm_append_singleton newest gone).symm
  next h =>
    refine ⟨hsub.cons_cons _, hdiv.cons newest, fun _ => rfl, nofun, fun v hv => ?_⟩
    cases hv
    simpa using h

theorem Retires.refl {chain : List Version} (h : ∀ v, chain = [v] → v.isTombstone = false) (hne : chain ≠ []) :
    Retires chain (chain, []) :=
  ⟨List.Sublist.refl _, by simp, fun _ => rfl, fun he => absurd he hne, h⟩

theorem releaseCheck_retires (gens : List Gen) {d : DirSlot} (hne : d.chain ≠ []) : Retires d.chain (releaseCheck gens d) := by
  obtain ⟨newest, older, hd⟩ := List.exists_cons_of_ne_nil hne
  rw [releaseCheck_eq gens hd, hd]
  exact .of_loneTombstone (keptBehind_sublist ..)
    ((keptBehind_perm gens newest older).trans ((List.reverse_perm _).symm.append_left _))

/-- A check of a release keeps what the generations see, and what a generation from the newest version on sees. -/
theorem visibleAt_releaseCheck {gens : List Gen} {d : DirSlot} (hfall : falls d.chain) {view : Gen}
    (hview : view ∈ gens ∨ ∀ v ∈ d.chain, v.gen ≤ view) : visibleAt (releaseCheck gens d).1 view = visibleAt d.chain view := by
  cases hd : d.chain with
  | nil => simp [releaseCheck, hd]
  | cons newest older =>
    rw [hd] at hfall hview
    rw [releaseCheck_kept gens hd, hd]
    have hkeep : ∀ v, versionAt (newest :: older) view = some v → v ∈ newest :: keptBehind gens (newest :: older) := by
      intro v hv
      by_cases hle : newest.gen ≤ view
      · have hnv : newest = v := by simpa [versionAt, hle] using hv
        exact hnv ▸ List.mem_cons_self
      · have hv' : versionAt older view = some v := by simpa [versionAt, hle] using hv
        rcases hview with hview | hview
        · exact List.mem_cons_of_mem _ (mem_keptBehind hfall hview (BitVec.not_le.mp hle) hv')
        · exact absurd (hview newest List.mem_cons_self) hle
    split
    next h =>
      obtain ⟨hk, ht⟩ := h
      refine (visibleAt_nil view).trans (visibleAt_eq_none fun v hv => ?_).symm
      have := hkeep v hv
      rw [hk, List.mem_singleton] at this
      exact this ▸ ht
    next => exact visibleAt_congr (versionAt_of_sublist hfall ((keptBehind_sublist gens newest older).cons_cons _) hkeep)

theorem chainSeen_releaseCheck (gens : List Gen) {d : DirSlot} (hfall : falls d.chain) : chainSeen gens (releaseCheck gens d).1 := by
  cases hd : d.chain with
  | nil => simp [releaseCheck, hd, chainSeen]
  | cons newest older =>
    rw [hd] at hfall
    rw [releaseCheck_kept gens hd, hd]
    split
    · trivial
    · exact chainSeen_keptBehind gens hfall

/-! ### The check of a publish -/

section
variable (gens : List Gen) {changed : List Tag} {d : DirSlot}

theorem publishCheck_of_unchanged (h : d.tag ∉ changed) : publishCheck gens changed d = (d.chain, []) := by
  simp only [publishCheck, h, if_false]

theorem publishCheck_of_single (h : d.tag ∈ changed) {v : Version} (hd : d.chain = [v]) :
    publishCheck gens changed d = retireLoneTombstone ([v], []) := by
  simp only [publishCheck, h, if_true, hd]

theorem publishCheck_of_pair (h : d.tag ∈ changed) {v prev : Version} {older : List Version} (hd : d.chain = v :: prev :: older) :
    publishCheck gens changed d = if windowSeen gens (v, prev) = true then (v :: prev :: older, [])
      else retireLoneTombstone (v :: older, [prev]) := by
  simp only [publishCheck, h, if_true, hd, retained_eq]

theorem publishCheck_retires (hne : d.chain ≠ []) (hlone : ∀ v, d.chain = [v] → v.isTombstone = false) :
    Retires d.chain (publishCheck gens changed d) := by
  by_cases h : d.tag ∈ changed
  · obtain ⟨v, rest, hd⟩ := List.exists_cons_of_ne_nil hne
    cases rest with
    | nil =>
      rw [publishCheck_of_single gens h hd, hd]
      exact .of_loneTombstone (List.Sublist.refl _) (List.Perm.refl _)
    | cons prev older =>
      rw [publishCheck_of_pair gens h hd, hd]
      split
      · exact .refl (fun w hw => by cases hw) (List.cons_ne_nil _ _)
      · refine .of_loneTombstone ((List.Sublist.refl older).cons prev) ?_
        exact (List.perm_append_singleton prev older).symm
  · rw [publishCheck_of_unchanged gens h]
    exact .refl hlone hne

end

/-- A check of a publish keeps chains seen whose versions behind the newest were seen. -/
theorem chainSeen_publishCheck (gens : List Gen) {changed : List Tag} {d : DirSlot} (hfall : falls d.chain)
    (hseen : d.tag ∉ changed → chainSeen gens d.chain) (hbehind : chainSeen gens d.chain.tail) :
    chainSeen gens (publishCheck gens changed d).1 := by
  by_cases h : d.tag ∈ changed
  · cases hd : d.chain with
    | nil => simp [publishCheck, h, hd, retireLoneTombstone, chainSeen]
    | cons v rest =>
      rw [hd] at hfall hbehind
      cases rest with
      | nil =>
        rw [publishCheck_of_single gens h hd, retireLoneTombstone_eq]
        split <;> trivial
      | cons prev older =>
        have hlt := (List.pairwise_cons.mp hfall).1 prev List.mem_cons_self
        rw [publishCheck_of_pair gens h hd]
        split
        next hw => exact ⟨windowSeen_iff.mp hw, hbehind⟩
        next =>
          rw [retireLoneTombstone_eq]
          split
          · trivial
          · exact chainSeen_raise hbehind (BitVec.le_of_lt hlt)
  · rw [publishCheck_of_unchanged gens h]
    exact hseen h

/-- A check of a publish keeps what a holding generation below the new version sees. -/
theorem visibleAt_publishCheck {gens : List Gen} {changed : List Tag} {d : DirSlot} {v : Version} {older : List Version}
    (hd : d.chain = v :: older) (hfall : falls d.chain) {view : Gen} (hview : view ∈ gens) (hlt : view < v.gen) :
    visibleAt (publishCheck gens changed d).1 view = visibleAt older view := by
  have hnew : versionAt d.chain view = versionAt older view := by
    rw [hd]
    simp [versionAt, BitVec.not_le.mpr hlt]
  by_cases h : d.tag ∈ changed
  · rw [hd] at hfall hnew
    cases older with
    | nil =>
      rw [publishCheck_of_single gens h hd, retireLoneTombstone_eq]
      split
      · rfl
      · exact visibleAt_congr hnew
    | cons prev older =>
      rw [publishCheck_of_pair gens h hd]
      split
      · exact visibleAt_congr hnew
      next hw =>
        have hprev : ¬ prev.gen ≤ view := fun hle => hw (windowSeen_iff.mpr ⟨view, hview, hle, hlt⟩)
        have hskip : versionAt (prev :: older) view = versionAt older view := by simp [versionAt, hprev]
        rw [retireLoneTombstone_eq]
        split
        next hl =>
          obtain ⟨rfl, -⟩ := hl
          exact (visibleAt_congr hskip).symm
        next =>
          refine visibleAt_congr (Eq.trans ?_ hskip.symm)
          simp [versionAt, BitVec.not_le.mpr hlt]
  · rw [publishCheck_of_unchanged gens h]
    exact visibleAt_congr hnew

end Sys2Proof.Machine
end

section
/-! SUPPORT. The directory: its order and its chains under installation and under retirement, with the entries and the
slots they take. -/

namespace Sys2Proof.Machine

/-! ### A directory in order -/

/-- A chain in order at a generation count: generations fall, lie between 1 and the count, and no tombstone stands alone
(R13, R14, R15). -/
structure ChainOk (g : Gen) (chain : List Version) : Prop where
  falls : falls chain
  notLone : ∀ v, chain = [v] → v.isTombstone = false
  gens : ∀ v ∈ chain, 1#32 ≤ v.gen ∧ v.gen ≤ g

/-- A directory in order: tags rise, every slot is occupied, every chain is in order (R2). -/
structure DirOk (g : Gen) (dir : List DirSlot) : Prop where
  tagsRise : (dir.map DirSlot.tag).Pairwise (· < ·)
  occupied : ∀ d ∈ dir, d.chain ≠ []
  chains : ∀ d ∈ dir, ChainOk g d.chain

section
variable {g : Gen} {dir : List DirSlot}

theorem ChainOk.nil (g : Gen) : ChainOk g [] := ⟨List.Pairwise.nil, nofun, fun _ hv => absurd hv List.not_mem_nil⟩

theorem chainOf_mem_or_nil (dir : List DirSlot) (tag : Tag) :
    chainOf dir tag = [] ∨ ∃ d ∈ dir, d.tag = tag ∧ chainOf dir tag = d.chain := by
  by_cases h : chainOf dir tag = []
  · exact .inl h
  · exact .inr (exists_slot_of_chainOf_ne_nil h)

theorem DirOk.chain (h : DirOk g dir) (tag : Tag) : ChainOk g (chainOf dir tag) := by
  rcases chainOf_mem_or_nil dir tag with hn | ⟨d, hd, -, hc⟩
  · exact hn ▸ .nil g
  · exact hc ▸ h.chains d hd

theorem DirOk.chainOf (h : DirOk g dir) {d : DirSlot} (hd : d ∈ dir) : chainOf dir d.tag = d.chain :=
  chainOf_of_mem h.tagsRise hd

/-- A slot holds a tag exactly when its chain is not empty. -/
theorem DirOk.chainOf_eq_nil_iff (h : DirOk g dir) {tag : Tag} : Machine.chainOf dir tag = [] ↔ ∀ d ∈ dir, d.tag ≠ tag := by
  refine ⟨fun hn d hd ht => ?_, chainOf_of_not_mem⟩
  subst ht
  rw [h.chainOf hd] at hn
  exact h.occupied d hd hn

/-- A directory whose tags rise, whose slots are occupied and whose chains are in order by tag. -/
theorem DirOk.of_chains (tagsRise : (dir.map DirSlot.tag).Pairwise (· < ·)) (occupied : ∀ d ∈ dir, d.chain ≠ [])
    (chains : ∀ tag, ChainOk g (Machine.chainOf dir tag)) : DirOk g dir :=
  ⟨tagsRise, occupied, fun d hd => chainOf_of_mem tagsRise hd ▸ chains d.tag⟩

end

theorem StoreOk.dirOk {s : State} (h : StoreOk s) : DirOk s.g s.directory :=
  ⟨h.tagsRise, h.occupied, fun d hd => ⟨h.gensFall d hd, h.noLoneTombstone d hd, h.versionGens d hd⟩⟩

/-! ### Installation (R2, R110) -/

section
variable {dir : List DirSlot} {tag : Tag} {v : Version}

theorem mem_install {x : DirSlot} (hx : x ∈ install dir tag v) : x ∈ dir ∨ (x.tag = tag ∧ ∃ older, x.chain = v :: older) := by
  induction dir with
  | nil =>
    obtain rfl := List.mem_singleton.mp hx
    exact .inr ⟨rfl, [], rfl⟩
  | cons d rest ih =>
    rw [install] at hx
    split at hx
    · rcases List.mem_cons.mp hx with rfl | hx
      · exact .inr ⟨rfl, [], rfl⟩
      · exact .inl hx
    · split at hx
      next ht =>
        rcases List.mem_cons.mp hx with rfl | hx
        · exact .inr ⟨ht.symm, d.chain, rfl⟩
        · exact .inl (List.mem_cons_of_mem _ hx)
      next =>
        rcases List.mem_cons.mp hx with rfl | hx
        · exact .inl List.mem_cons_self
        · exact (ih hx).imp_left (List.mem_cons_of_mem _)

theorem install_tagsRise (h : (dir.map DirSlot.tag).Pairwise (· < ·)) :
    ((install dir tag v).map DirSlot.tag).Pairwise (· < ·) := by
  induction dir with
  | nil => exact List.pairwise_singleton ..
  | cons d rest ih =>
    have h' := h
    rw [List.map_cons, List.pairwise_cons] at h'
    obtain ⟨hd, hrest⟩ := h'
    rw [install]
    split
    next hlt =>
      rw [List.map_cons, List.pairwise_cons]
      refine ⟨fun t ht => ?_, h⟩
      rw [List.map_cons] at ht
      rcases List.mem_cons.mp ht with rfl | ht
      · exact hlt
      · exact BitVec.lt_trans hlt (hd t ht)
    next hnlt =>
      split
      next heq => exact h
      next hne =>
        rw [List.map_cons, List.pairwise_cons]
        refine ⟨fun t ht => ?_, ih hrest⟩
        obtain ⟨x, hx, rfl⟩ := List.mem_map.mp ht
        rcases mem_install hx with hx | ⟨ht, -⟩
        · exact hd _ (List.mem_map_of_mem hx)
        · rw [ht]
          exact BitVec.lt_of_le_ne (BitVec.not_lt.mp hnlt) (Ne.symm hne)

theorem install_entriesInUse (dir : List DirSlot) (tag : Tag) (v : Version) :
    entriesInUse (install dir tag v) = entriesInUse dir + 1 := by
  induction dir with
  | nil => rfl
  | cons d rest ih =>
    have hcons : ∀ (x : DirSlot) (xs : List DirSlot), entriesInUse (x :: xs) = x.chain.length + entriesInUse xs := fun _ _ => rfl
    rw [install]
    split
    next =>
      rw [hcons, List.length_singleton, Nat.add_comm]
    next =>
      split
      next =>
        rw [hcons, hcons, List.length_cons]
        omega
      next =>
        rw [hcons, hcons, ih]
        omega

theorem install_length (h : (dir.map DirSlot.tag).Pairwise (· < ·)) (occupied : ∀ d ∈ dir, d.chain ≠ []) :
    (install dir tag v).length = dir.length + if chainOf dir tag = [] then 1 else 0 := by
  induction dir with
  | nil => rfl
  | cons d rest ih =>
    rw [List.map_cons, List.pairwise_cons] at h
    obtain ⟨hd, hrest⟩ := h
    rw [install]
    split
    next hlt =>
      have hnone : chainOf (d :: rest) tag = [] := by
        refine chainOf_of_not_mem fun x hx ht => ?_
        subst ht
        rcases List.mem_cons.mp hx with rfl | hx
        · exact BitVec.lt_irrefl _ hlt
        · exact BitVec.lt_irrefl _ (BitVec.lt_trans hlt (hd _ (List.mem_map_of_mem hx)))
      rw [if_pos hnone, List.length_cons]
    next =>
      split
      next heq =>
        subst heq
        rw [chainOf_cons_self, if_neg (occupied d List.mem_cons_self)]
        rfl
      next hne =>
        rw [chainOf_cons_of_ne (Ne.symm hne), List.length_cons, List.length_cons,
          ih hrest fun x hx => occupied x (List.mem_cons_of_mem _ hx)]
        omega

/-- A version of a newer generation becomes the newest of its chain. -/
theorem DirOk.install {g g' : Gen} (h : DirOk g dir) (hle : g ≤ g') (hgen : 1#32 ≤ v.gen ∧ v.gen ≤ g')
    (hnew : ∀ w ∈ Machine.chainOf dir tag, w.gen < v.gen)
    (hlone : Machine.chainOf dir tag = [] → v.isTombstone = false) : DirOk g' (Machine.install dir tag v) := by
  refine .of_chains (install_tagsRise h.tagsRise) (fun x hx => ?_) (fun tag' => ?_)
  · rcases mem_install hx with hx | ⟨-, older, hc⟩
    · exact h.occupied x hx
    · rw [hc]
      exact List.cons_ne_nil _ _
  · rw [chainOf_install h.tagsRise]
    have widen : ∀ t, ∀ w ∈ Machine.chainOf dir t, 1#32 ≤ w.gen ∧ w.gen ≤ g' := fun t w hw =>
      ((h.chain t).gens w hw).imp_right (BitVec.le_trans · hle)
    split
    · refine ⟨List.pairwise_cons.mpr ⟨hnew, (h.chain tag).falls⟩, fun w hw => ?_, fun w hw => ?_⟩
      · obtain ⟨rfl, hn⟩ := List.cons_eq_cons.mp hw
        exact hlone hn
      · rcases List.mem_cons.mp hw with rfl | hw
        · exact hgen
        · exact widen tag w hw
    · exact ⟨(h.chain tag').falls, (h.chain tag').notLone, widen tag'⟩

end

/-! ### Retirement -/

section
variable {check : DirSlot → List Version × List Version} {s : State} {g : Gen} (h : DirOk g s.directory)
  (hr : ∀ d ∈ s.directory, Retires d.chain (check d))
include h hr

/-- Every chain after a run is what a check in order keeps of the chain before, or was empty. -/
theorem chainOf_retireBy_retires (tag : Tag) :
    (chainOf s.directory tag = [] ∧ chainOf (retireBy check s).directory tag = [])
      ∨ ∃ d ∈ s.directory, d.tag = tag ∧ chainOf s.directory tag = d.chain
        ∧ chainOf (retireBy check s).directory tag = (check d).1 ∧ Retires d.chain (check d) := by
  rcases chainOf_mem_or_nil s.directory tag with hn | ⟨d, hd, rfl, hc⟩
  · exact .inl ⟨hn, chainOf_retireBy_of_not_mem (h.chainOf_eq_nil_iff.mp hn)⟩
  · exact .inr ⟨d, hd, rfl, hc, chainOf_retireBy h.tagsRise hd, hr d hd⟩

theorem chainOf_retireBy_sublist (tag : Tag) :
    (chainOf (retireBy check s).directory tag).Sublist (chainOf s.directory tag) := by
  rcases chainOf_retireBy_retires h hr tag with ⟨hn, hn'⟩ | ⟨d, -, -, hc, hc', hret⟩
  · rw [hn, hn']
  · rw [hc, hc']
    exact hret.sublist

/-- A newest version that is no tombstone stays the newest. -/
theorem head?_retireBy_of_live {tag : Tag} {v : Version} (hv : (chainOf s.directory tag).head? = some v)
    (hlive : v.isTombstone = false) : (chainOf (retireBy check s).directory tag).head? = some v := by
  rcases chainOf_retireBy_retires h hr tag with ⟨hn, -⟩ | ⟨d, -, -, hc, hc', hret⟩
  · rw [hn] at hv
    cases hv
  · rw [hc] at hv
    rw [hc']
    by_cases hk : (check d).1 = []
    · have := hret.emptied hk v hv
      rw [hlive] at this
      cases this
    · rw [hret.newest hk, hv]

/-- The newest version after a run was the newest before. -/
theorem head?_of_head?_retireBy {tag : Tag} {v : Version} (hv : (chainOf (retireBy check s).directory tag).head? = some v) :
    (chainOf s.directory tag).head? = some v := by
  rcases chainOf_retireBy_retires h hr tag with ⟨-, hn'⟩ | ⟨d, -, -, hc, hc', hret⟩
  · rw [hn'] at hv
    cases hv
  · rw [hc'] at hv
    rw [hc, ← hret.newest (by rintro he; rw [he] at hv; cases hv), hv]

theorem DirOk.retireBy : DirOk g (retireBy check s).directory := by
  refine .of_chains (retireBy_tagsRise h.tagsRise) (fun d hd => ?_) (fun tag => ?_)
  · obtain ⟨x, -, hk, rfl⟩ := mem_retireBy_directory.mp hd
    exact hk
  · rcases chainOf_retireBy_retires h hr tag with ⟨-, hn'⟩ | ⟨d, hd, -, -, hc', hret⟩
    · exact hn' ▸ .nil g
    · rw [hc']
      have hd := h.chains d hd
      exact ⟨hd.falls.sublist hret.sublist, hret.notLone, fun v hv => hd.gens v (hret.sublist.subset hv)⟩

omit h in
theorem retireBy_entriesInUse : entriesInUse (Machine.retireBy check s).directory ≤ entriesInUse s.directory := by
  rw [retireBy_directory]
  revert hr
  induction s.directory with
  | nil => exact fun _ => Nat.le_refl _
  | cons d rest ih =>
    intro hr
    have hd := (hr d List.mem_cons_self).sublist.length_le
    have hrest := ih fun x hx => hr x (List.mem_cons_of_mem _ hx)
    have hcons : ∀ (x : DirSlot) (xs : List DirSlot), entriesInUse (x :: xs) = x.chain.length + entriesInUse xs := fun _ _ => rfl
    rw [hcons, List.filterMap_cons]
    split
    next => omega
    next x hx =>
      split at hx
      · cases hx
      · cases hx
        rw [hcons]
        exact Nat.add_le_add hd hrest

omit h hr in
/-- The slots that a run empties are free again. -/
theorem retireBy_length (check : DirSlot → List Version × List Version) (s : State) :
    (Machine.retireBy check s).directory.length + s.directory.countP (fun d => (check d).1.isEmpty) = s.directory.length := by
  rw [retireBy_directory]
  induction s.directory with
  | nil => rfl
  | cons d rest ih =>
    rw [List.filterMap_cons, List.countP_cons, List.length_cons]
    cases (check d).1.isEmpty with
    | true =>
      simp only [if_true]
      omega
    | false =>
      simp only [Bool.false_eq_true, if_false, List.length_cons]
      omega

end

end Sys2Proof.Machine
end

section
/-! SUPPORT. The store in order: what is kept under retirement, what TAKE has promised the publish, and the bases of
the intents. -/

namespace Sys2Proof.Machine

variable {s t : State} {p : Port}

/-! ### Generations held -/

theorem mem_holdingGens {g : Gen} : g ∈ holdingGens s ↔
    (∃ q, (s.snaps.get q).state = .held g ∨ (s.snaps.get q).state = .frame g) ∨ s.slot4 = some g := by
  rw [holdingGens, List.mem_append, List.mem_filterMap, Option.mem_toList]
  refine or_congr ⟨?_, ?_⟩ Iff.rfl
  · rintro ⟨q, -, hq⟩
    refine ⟨q, ?_⟩
    split at hq
    next hs => exact .inl (by cases hq; exact hs)
    next hs => exact .inr (by cases hq; exact hs)
    all_goals cases hq
  · rintro ⟨q, hq⟩
    refine ⟨q, Port.mem_all q, ?_⟩
    rcases hq with hq | hq <;> rw [hq]

theorem mem_holdingGens_of_snaps (snaps : ∀ q, (t.snaps.get q).state = (s.snaps.get q).state) (slot4 : t.slot4 = s.slot4)
    {g : Gen} : g ∈ holdingGens t ↔ g ∈ holdingGens s := by
  simp only [mem_holdingGens, snaps, slot4]

/-- Binding a slot adds no generation but the one bound. -/
theorem mem_holdingGens_setSnap {x : Snap} {g : Gen} (h : g ∈ holdingGens (s.setSnap p x)) :
    g ∈ holdingGens s ∨ x.state = .held g ∨ x.state = .frame g := by
  rw [mem_holdingGens] at h ⊢
  rcases h with ⟨q, hq⟩ | h
  · by_cases hqp : q = p
    · subst hqp
      exact .inr (by simpa using hq)
    · exact .inl (.inl ⟨q, by simpa [hqp] using hq⟩)
  · exact .inl (.inr h)

/-- A FREE slot holds no generation, so binding it loses none. -/
theorem mem_holdingGens_of_free {x : Snap} (hs : (s.snaps.get p).state = .free) {g : Gen} (h : g ∈ holdingGens s) :
    g ∈ holdingGens (s.setSnap p x) := by
  rw [mem_holdingGens] at h ⊢
  rcases h with ⟨q, hq⟩ | h
  · have hqp : q ≠ p := by
      rintro rfl
      rw [hs] at hq
      rcases hq with hq | hq <;> cases hq
    exact .inl ⟨q, by simpa [hqp] using hq⟩
  · exact .inr h

/-! ### Bases and promises -/

/-- No base lies above the generation count, and no tombstone is a base (R67, R99). -/
def basesOk (g : Gen) (dir : List DirSlot) (intents : List Intent) : Prop :=
  ∀ i ∈ intents, ∀ base, i.op.base? = some base →
    base ≤ g ∧ ∀ v ∈ chainOf dir i.tag, v.gen = base → v.isTombstone = false

/-- What TAKE has promised the publish of a commit: a generation, no conflict, entries and slots (R98 to R104). -/
structure Promised (g : Gen) (dir : List DirSlot) (intents : List Intent) (c : Commit) : Prop where
  gRoom : g ≠ 0xFFFFFFFF#32
  passes : ∀ i ∈ intents, passesTake dir i
  entries : c.reservedEntries = intents.length
  slots : c.reservedSlots = intents.countP (needsSlot dir)

/-- The store in order, but for versions that no generation sees. -/
structure StoreUnswept (s : State) : Prop where
  dir : DirOk s.g s.directory
  gPositive : 1#32 ≤ s.g
  snapGens : ∀ g ∈ holdingGens s, 1#32 ≤ g ∧ g ≤ s.g
  slotFour : s.slot4.isSome = s.image.checkpoint.isSome
  bases : ∀ q, basesOk s.g s.directory (s.txns.get q).intents
  promised : ∀ c, s.engine = .digesting c → Promised s.g s.directory (s.txns.get c.port).intents c
  entryRoom : entriesInUse s.directory + reservedEntries s.engine ≤ 256
  slotRoom : s.directory.length + reservedSlots s.engine ≤ 128

theorem StoreOk.unswept (h : StoreOk s) : StoreUnswept s where
  dir := h.dirOk
  gPositive := h.gPositive
  snapGens := h.snapGens
  slotFour := h.slotFour
  bases := h.bases
  promised c he := ⟨h.gRoom c he, firstConflict_eq_none_iff.mp (h.stillPasses c he), h.entriesReserved c he,
    (h.slotsReserved c he).trans (slotsNeeded_eq _ _)⟩
  entryRoom := h.entryRoom
  slotRoom := h.slotRoom

theorem StoreUnswept.storeOk (h : StoreUnswept s) (seen : ∀ d ∈ s.directory, chainSeen (holdingGens s) d.chain) : StoreOk s where
  tagsRise := h.dir.tagsRise
  occupied := h.dir.occupied
  gensFall d hd := (h.dir.chains d hd).falls
  noLoneTombstone d hd := (h.dir.chains d hd).notLone
  seen := seen
  gPositive := h.gPositive
  versionGens d hd := (h.dir.chains d hd).gens
  snapGens := h.snapGens
  slotFour := h.slotFour
  bases := h.bases
  gRoom c he := (h.promised c he).gRoom
  stillPasses c he := firstConflict_eq_none_iff.mpr (h.promised c he).passes
  entriesReserved c he := (h.promised c he).entries
  slotsReserved c he := (h.promised c he).slots.trans (slotsNeeded_eq _ _).symm
  entryRoom := h.entryRoom
  slotRoom := h.slotRoom

/-- The same store under other snapshots: every generation held was held before, or is the generation count. -/
theorem StoreUnswept.of_same (h : StoreUnswept s) (g : t.g = s.g) (dir : t.directory = s.directory) (engine : t.engine = s.engine)
    (intents : ∀ q, (t.txns.get q).intents = (s.txns.get q).intents)
    (gens : ∀ x ∈ holdingGens t, x ∈ holdingGens s ∨ x = s.g) (slotFour : t.slot4.isSome = t.image.checkpoint.isSome) :
    StoreUnswept t where
  dir := by rw [g, dir]; exact h.dir
  gPositive := g ▸ h.gPositive
  snapGens x hx := by
    rw [g]
    rcases gens x hx with hx | rfl
    · exact h.snapGens x hx
    · exact ⟨h.gPositive, BitVec.le_refl _⟩
  slotFour := slotFour
  bases q := by rw [g, dir, intents]; exact h.bases q
  promised c he := by rw [g, dir, intents]; exact h.promised c (engine ▸ he)
  entryRoom := by rw [dir, engine]; exact h.entryRoom
  slotRoom := by rw [dir, engine]; exact h.slotRoom

theorem StoreOk.of_same (h : StoreOk s) (g : t.g = s.g) (dir : t.directory = s.directory) (engine : t.engine = s.engine)
    (intents : ∀ q, (t.txns.get q).intents = (s.txns.get q).intents)
    (gens : ∀ x ∈ holdingGens t, x ∈ holdingGens s ∨ x = s.g) (still : ∀ x ∈ holdingGens s, x ∈ holdingGens t)
    (slotFour : t.slot4.isSome = t.image.checkpoint.isSome) : StoreOk t :=
  (h.unswept.of_same g dir engine intents gens slotFour).storeOk fun d hd => chainSeen_mono still (h.seen d (dir ▸ hd))

/-- The invariant reads generation count, directory, engine, intents, snapshots and whether a checkpoint runs. -/
theorem StoreOk.of_eq (h : StoreOk s) (g : t.g = s.g) (dir : t.directory = s.directory) (engine : t.engine = s.engine)
    (txns : t.txns = s.txns) (snaps : t.snaps = s.snaps) (slot4 : t.slot4 = s.slot4)
    (checkpoint : t.image.checkpoint.isSome = s.image.checkpoint.isSome) : StoreOk t := by
  have gens : ∀ {x}, x ∈ holdingGens t ↔ x ∈ holdingGens s := mem_holdingGens_of_snaps (fun q => by rw [snaps]) slot4
  refine h.of_same g dir engine (fun q => by rw [txns]) (fun x hx => .inl (gens.mp hx)) (fun x hx => gens.mpr hx) ?_
  rw [slot4, checkpoint]
  exact h.slotFour

/-! ### Retirement keeps the promises (R104) -/

/-- The tags of the CREATED intents of a list. -/
def createdTags (intents : List Intent) : List Tag :=
  intents.filterMap (fun i =>
    match i.op with
    | .created _ _ => some i.tag
    | .written .. | .added .. | .deleted .. => none)

theorem createdInCommit_of {c : Commit} (he : s.engine = .digesting c) :
    createdInCommit s = createdTags (s.txns.get c.port).intents := by
  simp only [createdInCommit, he, createdTags] <;> rfl

theorem createdTags_sublist (intents : List Intent) : (createdTags intents).Sublist (intents.map Intent.tag) := by
  induction intents with
  | nil => exact List.Sublist.slnil
  | cons i rest ih =>
    rw [createdTags, List.filterMap_cons]
    split
    next => exact ih.cons _
    next x hx =>
      split at hx
      · cases hx
        exact ih.cons_cons _
      all_goals cases hx

theorem countP_needsSlot (dir : List DirSlot) (intents : List Intent) :
    intents.countP (needsSlot dir) = (createdTags intents).countP (fun tag => (chainOf dir tag).isEmpty) := by
  induction intents with
  | nil => rfl
  | cons i rest ih =>
    obtain ⟨tag, op⟩ := i
    have hrest : createdTags (⟨tag, op⟩ :: rest) = createdTags [⟨tag, op⟩] ++ createdTags rest := by
      rw [createdTags, ← List.singleton_append, List.filterMap_append]
      rfl
    rw [hrest, List.countP_append, List.countP_cons, ih, Nat.add_comm]
    congr 1
    cases op with
    | created a as => simp [needsSlot, createdTags]
    | written | added | deleted => rfl

section
variable {check : DirSlot → List Version × List Version} {g : Gen} (h : DirOk g s.directory)
  (hr : ∀ d ∈ s.directory, Retires d.chain (check d))
include h hr

/-- The tags of a list that a run leaves without a slot: those that had none, and those whose chains it empties. -/
theorem countP_chainOf_retireBy {tags : List Tag} (hnodup : tags.Nodup) :
    tags.countP (fun tag => (chainOf (retireBy check s).directory tag).isEmpty)
      = tags.countP (fun tag => (chainOf s.directory tag).isEmpty)
        + s.directory.countP (fun d => (check d).1.isEmpty && decide (d.tag ∈ tags)) := by
  have hemptied : tags.countP (fun tag => !(chainOf s.directory tag).isEmpty && (chainOf (retireBy check s).directory tag).isEmpty)
      = s.directory.countP (fun d => (check d).1.isEmpty && decide (d.tag ∈ tags)) := by
    rw [List.countP_eq_length_filter, List.countP_eq_length_filter, ← List.length_map (f := DirSlot.tag)]
    have hdir : (s.directory.map DirSlot.tag).Nodup := h.tagsRise.imp fun hlt he => by
      rw [he] at hlt
      exact BitVec.lt_irrefl _ hlt
    refine List.Perm.length_eq ((List.perm_ext_iff_of_nodup (hnodup.filter _) (hdir.sublist (List.filter_sublist.map _))).mpr ?_)
    intro tag
    simp only [List.mem_filter, List.mem_map, Bool.and_eq_true, Bool.not_eq_true', List.isEmpty_eq_false_iff, ne_eq,
      List.isEmpty_iff, decide_eq_true_eq]
    constructor
    · rintro ⟨ht, hne, hempty⟩
      obtain ⟨d, hd, rfl, -⟩ := exists_slot_of_chainOf_ne_nil hne
      exact ⟨d, ⟨hd, chainOf_retireBy h.tagsRise hd ▸ hempty, ht⟩, rfl⟩
    · rintro ⟨d, ⟨hd, hempty, ht⟩, rfl⟩
      exact ⟨ht, h.chainOf hd ▸ h.occupied d hd, (chainOf_retireBy h.tagsRise hd).trans hempty⟩
  rw [← hemptied]
  clear hemptied hnodup
  induction tags with
  | nil => rfl
  | cons tag rest ih =>
    have hsub := (chainOf_retireBy_sublist h hr tag).length_le
    simp only [List.countP_cons, ih]
    cases hc : chainOf s.directory tag with
    | nil =>
      rw [hc] at hsub
      have hn : chainOf (retireBy check s).directory tag = [] := List.eq_nil_of_length_eq_zero (Nat.le_zero.mp hsub)
      simp only [hn, List.isEmpty_nil, Bool.not_true, Bool.false_and, if_true, Bool.false_eq_true, if_false]
      omega
    | cons v older =>
      simp only [List.isEmpty_cons, Bool.not_false, Bool.true_and, Bool.false_eq_true, if_false]
      omega

/-- An intent that passes still passes: no base and no counter is lost, and a tombstone may only go. -/
theorem passesTake_retireBy {i : Intent} (hi : passesTake s.directory i)
    (hbase : ∀ base, i.op.base? = some base → ∀ v ∈ chainOf s.directory i.tag, v.gen = base → v.isTombstone = false) :
    passesTake (retireBy check s).directory i := by
  have keep : ∀ {base}, i.op.base? = some base → (∃ v, (chainOf s.directory i.tag).head? = some v ∧ v.gen = base) →
      ∃ v, (chainOf (retireBy check s).directory i.tag).head? = some v ∧ v.gen = base := by
    rintro base hb ⟨v, hv, hgen⟩
    exact ⟨v, head?_retireBy_of_live h hr hv (hbase base hb v (List.mem_of_mem_head? hv) hgen), hgen⟩
  obtain ⟨tag, op⟩ := i
  cases op with
  | created a as => exact fun v hv => hi v (head?_of_head?_retireBy h hr hv)
  | written base body => exact keep rfl hi
  | deleted base => exact keep rfl hi
  | added base delta =>
    obtain ⟨v, hv, hk⟩ := hi
    refine ⟨v, head?_retireBy_of_live h hr hv ?_, hk⟩
    rw [← Bool.not_eq_true]
    intro ht
    rw [kind?_of_isTombstone ht] at hk
    cases hk

end

theorem basesOk.sublist {g g' : Gen} {dir dir' : List DirSlot} {intents : List Intent} (h : basesOk g dir intents) (hg : g ≤ g')
    (hsub : ∀ tag, ∀ v ∈ chainOf dir' tag, v ∈ chainOf dir tag ∨ g < v.gen) : basesOk g' dir' intents := by
  intro i hi base hb
  obtain ⟨hle, htomb⟩ := h i hi base hb
  refine ⟨BitVec.le_trans hle hg, fun v hv hgen => ?_⟩
  rcases hsub i.tag v hv with hv | hlt
  · exact htomb v hv hgen
  · exact absurd (hgen ▸ hle) (BitVec.not_le.mpr hlt)

/-- A retirement run keeps the store in order; slots that it empties under a commit's CREATED intents become reserved. -/
theorem StoreUnswept.retireBy (h : StoreUnswept s) (hc : ∀ q, ((s.txns.get q).intents.map Intent.tag).Nodup)
    {check : DirSlot → List Version × List Version} (hr : ∀ d ∈ s.directory, Retires d.chain (check d)) :
    StoreUnswept (retireBy check s) := by
  have hentries := retireBy_entriesInUse hr
  have hlength := retireBy_length check s
  refine ⟨h.dir.retireBy hr, h.gPositive, h.snapGens, h.slotFour,
    fun q => (h.bases q).sublist (BitVec.le_refl _) fun tag v hv => .inl ((chainOf_retireBy_sublist h.dir hr tag).subset hv),
    fun c he => ?_, ?_, ?_⟩
  · rw [retireBy_engine] at he
    cases hs : s.engine with
    | idle =>
      rw [hs] at he
      cases he
    | digesting c' =>
      rw [hs] at he
      cases he
      obtain ⟨hg, hpass, hent, hslots⟩ := h.promised c' hs
      refine ⟨hg, fun i hi => passesTake_retireBy h.dir hr (hpass i hi) fun base hb => (h.bases _ i hi base hb).2, hent, ?_⟩
      show c'.reservedSlots + _ = _
      rw [hslots, createdInCommit_of hs, countP_needsSlot, countP_needsSlot]
      exact (countP_chainOf_retireBy h.dir hr ((hc c'.port).sublist (createdTags_sublist _))).symm
  · have hsame : reservedEntries (s.engine.passSlots (s.directory.countP
        (fun d => (check d).1.isEmpty && decide (d.tag ∈ createdInCommit s)))) = reservedEntries s.engine := by
      cases s.engine <;> rfl
    rw [retireBy_engine, hsame]
    exact (Nat.add_le_add_right hentries _).trans h.entryRoom
  · have hroom := h.slotRoom
    rw [retireBy_engine]
    have hfew : s.directory.countP (fun d => (check d).1.isEmpty && decide (d.tag ∈ createdInCommit s))
        ≤ s.directory.countP (fun d => (check d).1.isEmpty) :=
      List.countP_mono_left fun d _ hd => (Bool.and_eq_true_iff.mp hd).1
    have hpass : ∀ n, reservedSlots (s.engine.passSlots n) ≤ reservedSlots s.engine + n := fun n => by
      cases s.engine with
      | idle => exact Nat.zero_le _
      | digesting c => exact Nat.le_refl _
    have := hpass (s.directory.countP (fun d => (check d).1.isEmpty && decide (d.tag ∈ createdInCommit s)))
    omega

/-- After a release the store is in order again. -/
theorem StoreUnswept.release (h : StoreUnswept s) (hc : ∀ q, ((s.txns.get q).intents.map Intent.tag).Nodup) :
    StoreOk (retireOnRelease s) := by
  refine (h.retireBy hc fun d hd => releaseCheck_retires (holdingGens s) (h.dir.occupied d hd)).storeOk fun d' hd' => ?_
  obtain ⟨d, hd, -, rfl⟩ := mem_retireBy_directory.mp hd'
  exact chainSeen_releaseCheck _ (h.dir.chains d hd).falls

end Sys2Proof.Machine
end

section
/-! SUPPORT. States of one store: what the time base, the load's reads and a checkpoint's operations leave as it was, and
every command for a predicate of the store. -/

namespace Sys2Proof.Machine

/-- Two states that agree on the store: generation count, directory, pages, engine, staged intents, the generations held
and whether a checkpoint runs. -/
structure SameStore (s t : State) : Prop where
  g : t.g = s.g
  directory : t.directory = s.directory
  pool : t.pool = s.pool
  engine : t.engine = s.engine
  intents : ∀ q, (t.txns.get q).intents = (s.txns.get q).intents
  snaps : ∀ q, (t.snaps.get q).state = (s.snaps.get q).state
  slot4 : t.slot4 = s.slot4
  checkpoint : t.image.checkpoint.isSome = s.image.checkpoint.isSome

variable {s t : State} {Q P : State → Prop}

theorem SameStore.refl (s : State) : SameStore s s := ⟨rfl, rfl, rfl, rfl, fun _ => rfl, fun _ => rfl, rfl, rfl⟩

/-- Another image controller and another flash, with or without a checkpoint as before. -/
theorem SameStore.of_image (g : t.g = s.g) (directory : t.directory = s.directory) (pool : t.pool = s.pool)
    (engine : t.engine = s.engine) (txns : t.txns = s.txns) (snaps : t.snaps = s.snaps) (slot4 : t.slot4 = s.slot4)
    (checkpoint : t.image.checkpoint.isSome = s.image.checkpoint.isSome) : SameStore s t :=
  ⟨g, directory, pool, engine, fun q => by rw [txns], fun q => by rw [snaps], slot4, checkpoint⟩

theorem SameStore.holdingGens (h : SameStore s t) {g : Gen} : g ∈ holdingGens t ↔ g ∈ holdingGens s :=
  mem_holdingGens_of_snaps h.snaps h.slot4

theorem sameStore_withCheckpoint {c : Checkpoint} {op : FlashOp} {u : State} (h : SameStore s u)
    (hc : s.image.checkpoint.isSome = true) : SameStore s (withCheckpoint c op u) :=
  { h with checkpoint := hc.symm }

theorem sameStore_tickAll (s : State) : SameStore s (tickAll s) := by
  unfold tickAll
  split
  · exact .refl s
  · refine ⟨rfl, rfl, rfl, rfl, fun q => ?_, fun q => ?_, rfl, rfl⟩
    · simp only [PortMap.get_mapPorts, Context.tick]
    · simp only [PortMap.get_mapPorts, Snap.tick]

theorem sameStore_deviceResetEnd (adr : BitVec 3) (priv : BitVec 4) (s : State) : SameStore s (deviceResetEnd adr priv s) := by
  unfold deviceResetEnd
  split
  · exact .of_image rfl rfl rfl rfl rfl rfl rfl rfl
  · exact .refl s

/-- Every command keeps a predicate of the store, when requests keep it, and the steps of transactions, the ends of
checkpoints, a device reset and the load's installation. `Q` is what is known of the state besides. -/
theorem TakesRequests.exec_store (T : TakesRequests (fun u => Q u ∧ P u))
    {c : Instr} (hQ : ∀ {c t}, Machine.exec c s = .next t → Q t) (hq : Q s) (h : P s)
    (same : ∀ {u}, SameStore s u → P u)
    (ended : ∀ r u, SameStore s u → P (endCheckpoint r u))
    (timedOut : ∀ p, (s.txns.get p).state = .opened →
      P (deliver p ⟨.txnTimeout, 0#16, 0#32, .outcome .timedOut⟩ flagTxnEnded (discardTxn p .timedOut s)))
    (rejects : ∀ p rest o, s.engine = .idle → s.commitQueue = p :: rest → validate s (s.txns.get p).intents = some o →
      P (rejectTxn p o (takenState p rest s)))
    (reserves : ∀ p rest, s.engine = .idle → s.commitQueue = p :: rest → validate s (s.txns.get p).intents = none →
      P (reserveTxn p (takenState p rest s)))
    (digest : ∀ c, s.engine = .digesting c → P { s with engine := .digesting (c.digestPage s.pool) })
    (publish : ∀ c, s.engine = .digesting c → c.todo = [] → P (publishCommit c s))
    (reset : ∀ cause, c = .deviceReset cause → P (deviceReset cause s))
    (install : ∀ c e u v, s.image.loader = .installing c → readEntry s.flash c.slot c.offset = some e →
      installEntry e s = some u → SameStore u v → P v)
    (hc : Machine.exec c s = .next t) : P t := by
  have img : ∀ {u : State}, u.g = s.g → u.directory = s.directory → u.pool = s.pool → u.engine = s.engine → u.txns = s.txns →
      u.snaps = s.snaps → u.slot4 = s.slot4 → u.image.checkpoint.isSome = s.image.checkpoint.isSome → P u :=
    fun a b c d e f g i => same (.of_image a b c d e f g i)
  have both : ∀ {i : Instr} {u : State}, Machine.exec i s = .next u → P u → Q u ∧ P u := fun hi hu => ⟨hQ hi, hu⟩
  have tries : ∀ slots, P (trySlots s slots) :=
    trySlots_of (img rfl rfl rfl rfl rfl rfl rfl rfl) (fun _ _ _ => img rfl rfl rfl rfl rfl rfl rfl rfl)
      (fun _ _ _ => img rfl rfl rfl rfl rfl rfl rfl rfl)
  have some_of : ∀ {c}, s.image.checkpoint = some c → s.image.checkpoint.isSome = true := fun h => by rw [h]; rfl
  have settled : ∀ left, SameStore s (settledState left s) := fun left => .of_image rfl rfl rfl rfl rfl rfl rfl rfl
  refine (T.exec ⟨hq, h⟩ ?tick ?idleExpiry ?take ?digest ?publish ?reset ?resetEnd ?pollReady ?pollTimeout
    ?eraseDone ?eraseExpiry ?programDone ?programExpiry ?readback ?headers ?checked ?installed hc).2
  case tick => exact both (i := .tick) rfl (same (sameStore_tickAll s))
  case idleExpiry =>
    exact fun p => both (i := .idleTimerExpiry p) rfl (expireIdle_of h fun ho _ => timedOut p ho)
  case take => exact both (i := .take) rfl (takeHead_of h rejects reserves)
  case digest => exact both (i := .pageDigested) rfl (digestPage_of h digest)
  case publish => exact both (i := .publish) rfl (publishHead_of h publish)
  case reset => exact fun cause hreset => both (i := .deviceReset cause) rfl (reset cause hreset)
  case resetEnd => exact fun adr priv => both (i := .deviceResetEnd adr priv) rfl (same (sameStore_deviceResetEnd adr priv s))
  case pollReady =>
    refine fun left => both (i := .statusPollReady left) rfl (pollReady_of h (fun _ _ => ?_)
      (fun _ _ _ _ => img rfl rfl rfl rfl rfl rfl rfl rfl) (fun _ c _ hc => ?_) (fun _ c _ hc => ?_))
    · unfold sendLoadRead
      split <;> exact img rfl rfl rfl rfl rfl rfl rfl rfl
    · unfold sendErase
      split
      · exact same (sameStore_withCheckpoint (.of_image rfl rfl rfl rfl rfl rfl rfl rfl) (some_of hc))
      all_goals exact same (settled left)
    · unfold sendProgram
      split
      · exact same (sameStore_withCheckpoint (.of_image rfl rfl rfl rfl rfl rfl rfl rfl) (some_of hc))
      · exact same (sameStore_withCheckpoint (.of_image rfl rfl rfl rfl rfl rfl rfl rfl) (some_of hc))
      · exact same (settled left)
  case pollTimeout =>
    exact both (i := .statusPollTimeout) rfl (pollTimeout_of h (fun _ _ _ => img rfl rfl rfl rfl rfl rfl rfl rfl)
      (fun _ _ _ _ _ _ => ended _ s (.refl s)))
  case eraseDone =>
    exact fun left => both (i := .eraseDone left) rfl (eraseDone_of h fun _ _ _ _ hc => eraseEnded_of (same (settled left))
      (fun _ _ _ => same (sameStore_withCheckpoint (settled left) (some_of hc)))
      (fun _ _ _ => same (sameStore_withCheckpoint (settled left) (some_of hc)))
      (fun _ _ _ => same (sameStore_withCheckpoint (settled left) (some_of hc))))
  case eraseExpiry => exact both (i := .eraseTimerExpiry) rfl (expireErase_of h fun _ _ _ => ended _ s (.refl s))
  case programDone =>
    exact fun left => both (i := .programDone left) rfl (programDone_of h fun _ _ _ _ => img rfl rfl rfl rfl rfl rfl rfl rfl)
  case programExpiry => exact both (i := .programTimerExpiry) rfl (expireProgram_of h fun _ _ _ _ => ended _ s (.refl s))
  case readback =>
    exact fun received => both (i := .readbackDone received) rfl (readbackDone_of h
      (fun _ _ _ _ hc => unitVerified_of h (fun _ _ _ _ => same (sameStore_withCheckpoint (.refl s) (some_of hc)))
        (fun _ _ _ _ => same (sameStore_withCheckpoint (.refl s) (some_of hc)))
        (fun _ => ended _ _ (.of_image rfl rfl rfl rfl rfl rfl rfl rfl)))
      (fun _ _ _ _ _ => ended _ s (.refl s)))
  case headers =>
    exact both (i := .loadHeadersRead) rfl (headersRead_of h (fun _ _ => img rfl rfl rfl rfl rfl rfl rfl rfl) (fun _ _ => tries))
  case checked =>
    exact both (i := .loadEntryChecked) rfl (entryChecked_of h (fun _ _ _ => tries)
      (fun _ _ _ _ _ => img rfl rfl rfl rfl rfl rfl rfl rfl) (fun _ _ _ => img rfl rfl rfl rfl rfl rfl rfl rfl))
  case installed =>
    exact both (i := .loadEntryInstalled) rfl (entryInstalled_of h (fun _ _ _ => img rfl rfl rfl rfl rfl rfl rfl rfl)
      (fun c e u hl _ he hu => install c e u _ hl he hu (.of_image rfl rfl rfl rfl rfl rfl rfl rfl))
      (fun c e u hl _ he hu => install c e u _ hl he hu (.of_image rfl rfl rfl rfl rfl rfl rfl rfl)))

end Sys2Proof.Machine
end

section
/-! SUPPORT. The versions that a publish installs, tag by tag, and the directory that they leave. -/

namespace Sys2Proof.Machine

/-- What an intent installs depends on its own tag's chain alone. -/
theorem installedContent_congr {dir dir' : List DirSlot} {i : Intent} (h : chainOf dir' i.tag = chainOf dir i.tag)
    (done : List (Tag × Crc)) : installedContent dir' done i = installedContent dir done i := by
  have hl : lookup dir' i.tag = lookup dir i.tag := by simp only [lookup, h]
  simp only [installedContent, carriedAttrs, carriedValue, hl]

theorem installedContent_isTombstone (dir : List DirSlot) (done : List (Tag × Crc)) (i : Intent) (gen : Gen) :
    (⟨gen, installedContent dir done i⟩ : Version).isTombstone = true ↔ ∃ base, i.op = .deleted base := by
  obtain ⟨tag, op⟩ := i
  cases op with
  | created a as =>
    cases as with
    | blob body => cases body <;> exact iff_of_false nofun nofun
    | counter d => exact iff_of_false nofun nofun
  | written base body => exact iff_of_false nofun nofun
  | added base d => exact iff_of_false nofun nofun
  | deleted base => exact iff_of_true rfl ⟨base, rfl⟩

section
variable {gen : Gen} {done : List (Tag × Crc)} {dir : List DirSlot} {intents : List Intent}

theorem installAll_cons (i : Intent) (rest : List Intent) : installAll gen done dir (i :: rest)
    = installAll gen done (install dir i.tag ⟨gen, installedContent dir done i⟩) rest := rfl

theorem installAll_tagsRise (h : (dir.map DirSlot.tag).Pairwise (· < ·)) :
    ((installAll gen done dir intents).map DirSlot.tag).Pairwise (· < ·) := by
  induction intents generalizing dir with
  | nil => exact h
  | cons i rest ih => exact ih (install_tagsRise h)

theorem installAll_occupied (h : ∀ d ∈ dir, d.chain ≠ []) : ∀ d ∈ installAll gen done dir intents, d.chain ≠ [] := by
  induction intents generalizing dir with
  | nil => exact h
  | cons i rest ih =>
    refine ih fun d hd => ?_
    rcases mem_install hd with hd | ⟨-, older, hc⟩
    · exact h d hd
    · rw [hc]
      exact List.cons_ne_nil _ _

theorem installAll_entriesInUse : entriesInUse (installAll gen done dir intents) = entriesInUse dir + intents.length := by
  induction intents generalizing dir with
  | nil => rfl
  | cons i rest ih =>
    rw [installAll_cons, ih, install_entriesInUse, List.length_cons]
    omega

/-- A tag that no intent changes keeps its chain. -/
theorem chainOf_installAll_of_not_mem {tag : Tag} (h : tag ∉ intents.map Intent.tag) :
    chainOf (installAll gen done dir intents) tag = chainOf dir tag := by
  induction intents generalizing dir with
  | nil => rfl
  | cons i rest ih =>
    rw [List.map_cons, List.mem_cons, not_or] at h
    rw [installAll_cons, ih h.2, chainOf_install_of_ne h.1]

/-- The version that an intent installs becomes the newest of its tag's chain. -/
theorem chainOf_installAll (hdir : (dir.map DirSlot.tag).Pairwise (· < ·)) (hnodup : (intents.map Intent.tag).Nodup) {i : Intent}
    (hi : i ∈ intents) : chainOf (installAll gen done dir intents) i.tag
      = ⟨gen, installedContent dir done i⟩ :: chainOf dir i.tag := by
  induction intents generalizing dir with
  | nil => cases hi
  | cons j rest ih =>
    rw [List.map_cons, List.nodup_cons] at hnodup
    obtain ⟨hj, hrest⟩ := hnodup
    rw [installAll_cons]
    rcases List.mem_cons.mp hi with rfl | hi
    · rw [chainOf_installAll_of_not_mem hj, chainOf_install hdir, if_pos rfl]
    · have hne : i.tag ≠ j.tag := fun e => hj (e ▸ List.mem_map_of_mem hi)
      have hsame : chainOf (install dir j.tag ⟨gen, installedContent dir done j⟩) i.tag = chainOf dir i.tag :=
        chainOf_install_of_ne hne _
      rw [ih (install_tagsRise hdir) hrest hi, hsame, installedContent_congr hsame]

/-- The directory slots that the versions of a commit take (R102). -/
theorem installAll_length (h : (dir.map DirSlot.tag).Pairwise (· < ·)) (occupied : ∀ d ∈ dir, d.chain ≠ [])
    (hnodup : (intents.map Intent.tag).Nodup) (hpass : ∀ i ∈ intents, passesTake dir i) :
    (installAll gen done dir intents).length = dir.length + intents.countP (needsSlot dir) := by
  induction intents generalizing dir with
  | nil => rfl
  | cons i rest ih =>
    rw [List.map_cons, List.nodup_cons] at hnodup
    obtain ⟨hi, hrest⟩ := hnodup
    have hsame : ∀ j ∈ rest, chainOf (install dir i.tag ⟨gen, installedContent dir done i⟩) j.tag = chainOf dir j.tag :=
      fun j hj => chainOf_install_of_ne (fun e => hi (List.mem_map.mpr ⟨j, hj, e⟩)) _
    have hoccupied : ∀ d ∈ install dir i.tag ⟨gen, installedContent dir done i⟩, d.chain ≠ [] :=
      installAll_occupied (intents := [i]) occupied
    have hpass' : ∀ j ∈ rest, passesTake (install dir i.tag ⟨gen, installedContent dir done i⟩) j := fun j hj => by
      have := hpass j (List.mem_cons_of_mem _ hj)
      simpa only [passesTake, hsame j hj] using this
    have hcount : rest.countP (needsSlot (install dir i.tag ⟨gen, installedContent dir done i⟩)) = rest.countP (needsSlot dir) :=
      List.countP_congr fun j hj => by simp only [needsSlot, hsame j hj]
    have hneeds : needsSlot dir i = true ↔ chainOf dir i.tag = [] := by
      have hp := hpass i List.mem_cons_self
      obtain ⟨tag, op⟩ := i
      cases op with
      | created a as => simp [needsSlot]
      | written base body | added base d | deleted base =>
        obtain ⟨v, hv, -⟩ := hp
        have hne : chainOf dir tag ≠ [] := fun hn => by
          have hv' : (chainOf dir tag).head? = some v := hv
          rw [hn] at hv'
          cases hv'
        simp [needsSlot, hne]
    rw [installAll_cons, ih (install_tagsRise h) hoccupied hrest hpass', hcount, install_length h occupied, List.countP_cons,
      if_congr hneeds rfl rfl]
    omega

/-- The versions of a commit that passes leave the directory in order at the new generation count (R110). -/
theorem DirOk.installAll {g : Gen} (h : DirOk g dir) (hg : g < gen) (hpos : 1#32 ≤ gen) (hnodup : (intents.map Intent.tag).Nodup)
    (hpass : ∀ i ∈ intents, passesTake dir i) : DirOk gen (installAll gen done dir intents) := by
  refine .of_chains (installAll_tagsRise h.tagsRise) (installAll_occupied h.occupied) fun tag => ?_
  have hold := h.chain tag
  have hgens : ∀ w ∈ Machine.chainOf dir tag, 1#32 ≤ w.gen ∧ w.gen ≤ gen := fun w hw =>
    (hold.gens w hw).imp_right fun hle => BitVec.le_trans hle (BitVec.le_of_lt hg)
  by_cases ht : tag ∈ intents.map Intent.tag
  · obtain ⟨i, hi, rfl⟩ := List.mem_map.mp ht
    rw [chainOf_installAll h.tagsRise hnodup hi]
    refine ⟨List.pairwise_cons.mpr ⟨fun w hw => Gen.lt_of_le_of_lt (hold.gens w hw).2 hg, hold.falls⟩, fun v hv => ?_,
      fun w hw => ?_⟩
    · obtain ⟨rfl, hn⟩ := List.cons_eq_cons.mp hv
      rw [← Bool.not_eq_true, installedContent_isTombstone]
      rintro ⟨base, hop⟩
      have hp := hpass i hi
      simp only [passesTake, hop] at hp
      obtain ⟨v, hv, -⟩ := hp
      rw [hn] at hv
      cases hv
    · rcases List.mem_cons.mp hw with rfl | hw
      · exact ⟨hpos, BitVec.le_refl _⟩
      · exact hgens w hw
  · rw [chainOf_installAll_of_not_mem ht]
    exact ⟨hold.falls, hold.notLone, hgens⟩

end

end Sys2Proof.Machine
end

section
/-! SUPPORT. The store under every command: staging keeps bases, TAKE promises what PUBLISH uses, and the statement. -/

namespace Sys2Proof.Machine

variable {s t : State} {p : Port}

/-! ### Contexts -/

theorem basesOk.nil (g : Gen) (dir : List DirSlot) : basesOk g dir [] := fun _ hi => absurd hi List.not_mem_nil

/-- Another context: its bases are in order, and the intents of a commit in progress stay. -/
theorem StoreOk.setTxn (h : StoreOk s) {x : Context} (bases : basesOk s.g s.directory x.intents)
    (taken : s.engine.port? = some p → x.intents = (s.txns.get p).intents) : StoreOk (s.setTxn p x) := by
  have hu := h.unswept
  refine StoreUnswept.storeOk ⟨hu.dir, hu.gPositive, hu.snapGens, hu.slotFour,
    setTxn_forall (Q := fun _ y => basesOk s.g s.directory y.intents) bases fun q _ => hu.bases q, fun c he => ?_, hu.entryRoom,
    hu.slotRoom⟩ h.seen
  have he' : s.engine = .digesting c := he
  have hsame : ((s.setTxn p x).txns.get c.port).intents = (s.txns.get c.port).intents := by
    by_cases hp : c.port = p
    · rw [hp]
      simpa using taken (by rw [he', Engine.port?, hp])
    · simp [hp]
  rw [hsame]
  exact hu.promised c he'

/-- Another context of a port that the engine does not commit for. -/
theorem StoreOk.setTxn_plain (h : StoreOk s) (hc : ContextsOk s) (hs : ¬ (s.txns.get p).state.taken) {x : Context}
    (bases : basesOk s.g s.directory x.intents) : StoreOk (s.setTxn p x) :=
  h.setTxn bases fun he => absurd ((hc.committer p).mpr he) hs

theorem StoreOk.withPool (h : StoreOk s) (pool : Pool) (queue : List Port) :
    StoreOk { s with pool := pool, commitQueue := queue } :=
  h.of_eq rfl rfl rfl rfl rfl rfl rfl

/-- The end of a transaction that the engine does not commit. -/
theorem StoreOk.discarded (h : StoreOk s) (hc : ContextsOk s) (hs : ¬ (s.txns.get p).state.taken) {x : Context}
    (hx : x.intents = []) (pool : Pool) (queue : List Port) :
    StoreOk ({ s with pool := pool, commitQueue := queue }.setTxn p x) := by
  refine (h.withPool pool queue).setTxn ?_ fun he => absurd ((hc.committer p).mpr he) hs
  rw [hx]
  exact .nil _ _

/-! ### Bases of staged intents (R67 to R79) -/

section
variable {g : Gen} {dir : List DirSlot} {intents : List Intent} {tag : Tag}

/-- The generation of a live newest version is a base in order. -/
theorem base_of_liveHead (h : DirOk g dir) {v : Version} (hl : lookup dir tag = .liveHead v) :
    v.gen ≤ g ∧ ∀ w ∈ chainOf dir tag, w.gen = v.gen → w.isTombstone = false := by
  have hv := head?_of_lookup (.inr hl)
  have hchain := h.chain tag
  obtain ⟨older, hc⟩ := List.head?_eq_some_iff.mp hv
  refine ⟨(hchain.gens v (List.mem_of_mem_head? hv)).2, fun w hw hgen => ?_⟩
  have hfall := hchain.falls
  rw [hc] at hw hfall
  rcases List.mem_cons.mp hw with rfl | hw
  · exact isTombstone_of_lookup_live hl
  · have := (List.pairwise_cons.mp hfall).1 w hw
    rw [hgen] at this
    exact absurd this (BitVec.lt_irrefl _)

theorem basesOk.append (h : basesOk g dir intents) {op : IntentOp}
    (base : ∀ b, op.base? = some b → b ≤ g ∧ ∀ v ∈ chainOf dir tag, v.gen = b → v.isTombstone = false) :
    basesOk g dir (intents ++ [⟨tag, op⟩]) := by
  intro i hi
  rcases List.mem_append.mp hi with hi | hi
  · exact h i hi
  · obtain rfl := List.mem_singleton.mp hi
    exact base

theorem mem_changeIntent {op : IntentOp} {i : Intent} (hi : i ∈ changeIntent intents tag op) :
    i ∈ intents ∨ i = ⟨tag, op⟩ := by
  obtain ⟨j, hj, rfl⟩ := List.mem_map.mp hi
  split
  next ht => exact .inr (congrArg (Intent.mk · op) (by simpa using ht))
  next => exact .inl hj

theorem basesOk.change (h : basesOk g dir intents) {i : Intent} (found : findIntent intents tag = some i) {op : IntentOp}
    (hbase : op.base? = i.op.base?) : basesOk g dir (changeIntent intents tag op) := by
  intro j hj b hb
  rcases mem_changeIntent hj with hj | rfl
  · exact h j hj b hb
  · obtain ⟨hi, rfl⟩ := findIntent_mem found
    exact h i hi b (hbase ▸ hb)

end

/-- What a WRITE or a RESIZE starts from in the tag's entry: a CREATED BLOB's body, empty at first, or a WRITTEN one's. -/
theorem findStart_entry {tag : Tag} {op : IntentOp} {body : StagedBody} (h : findStart p tag s = .ok (.entry op body)) :
    ∃ i, findIntent (s.txns.get p).intents tag = some i ∧ i.op = op
      ∧ ((∃ attrs staged, op = .created attrs (.blob staged) ∧ body = staged.getD StagedBody.empty)
        ∨ ∃ base, op = .written base body) := by
  simp only [findStart] at h
  split at h
  next itag attrs staged hi =>
    cases h
    exact ⟨_, hi, rfl, .inl ⟨attrs, staged, rfl, rfl⟩⟩
  next itag base staged hi =>
    cases h
    exact ⟨_, hi, rfl, .inr ⟨base, rfl⟩⟩
  · cases h
  · cases h
  · cases h
  next =>
    split at h
    · cases h
    · split at h
      · cases h
      · cases h
      · split at h
        · split at h <;> cases h
        · cases h
        · cases h

/-- A staging request leaves every base in order. -/
theorem Staged.bases (hst : Staged p s t) (h : StoreOk s) :
    ∃ intents pool, basesOk s.g s.directory intents ∧ t = withIntents p intents { s with pool := pool } := by
  have hp : basesOk s.g s.directory (s.txns.get p).intents := h.bases p
  cases hst with
  | appended tag op record absent room bodiless live =>
    refine ⟨_, s.pool, hp.append fun base hb => ?_, rfl⟩
    obtain ⟨v, hl, rfl⟩ := live base hb
    exact base_of_liveHead h.dirOk hl
  | changed tag i op found bodiless base => exact ⟨_, _, hp.change found base, rfl⟩
  | removed tag i found => exact ⟨_, _, fun j hj => hp j (List.mem_of_mem_filter hj), rfl⟩
  | claimed tag start change pool body record found asked granted =>
    refine ⟨_, pool, ?_, rfl⟩
    cases start with
    | entry op old =>
      obtain ⟨i, hi, rfl, ⟨attrs, staged, hop, -⟩ | ⟨base, hop⟩⟩ := findStart_entry found
      all_goals
        refine hp.change hi ?_
        rw [hop]
        rfl
    | firstTouch base length pages =>
      obtain ⟨-, -, attrs, crc, hl⟩ := findStart_firstTouch found
      refine hp.append fun b hb => ?_
      obtain rfl := Option.some_inj.mp hb
      exact base_of_liveHead h.dirOk hl

/-! ### Requests and snapshots -/

theorem StoreOk.takingOf_txn (h : StoreOk s) (hc : ContextsOk s) {r : Request} (hr : r ∈ txnRequests) {args : List Byte}
    (complete : Complete r args) : StoreOk (takingOf r p args s).1 := by
  have open_not : (s.txns.get p).state = .opened → ¬ (s.txns.get p).state.taken := fun ho => CtxState.plain.not_taken (.inr ho)
  have same : ∀ x : Context, x.intents = (s.txns.get p).intents → StoreOk (s.setTxn p x) :=
    fun x hx => h.setTxn (by rw [hx]; exact h.bases p) fun _ => hx
  refine takingOf_txn_of hr complete h (fun hs _ => ?_) (fun _ _ _ => same _ rfl) (fun hs t hst => ?_) (fun _ _ => same _ rfl)
    (fun _ _ => ?_) (fun hs => ?_) (fun hs => ?_)
  · exact h.setTxn_plain hc (CtxState.plain.not_taken (.inl hs)) (.nil _ _)
  · obtain ⟨intents, pool, hb, rfl⟩ := hst.bases h
    rw [noteStaging_withIntents]
    exact (h.withPool pool s.commitQueue).setTxn hb fun he => absurd ((hc.committer p).mpr he) (open_not hs)
  · exact (h.withPool s.pool (s.commitQueue ++ [p])).setTxn (h.bases p) fun _ => rfl
  · exact h.discarded hc (open_not hs) rfl _ _
  · exact h.discarded hc (by rw [hs]; rintro (ht | ht) <;> cases ht) rfl _ _

theorem StoreOk.resetTxn (h : StoreOk s) (hc : ContextsOk s) (p : Port) : StoreOk (resetTxn p s) := by
  refine resetTxn_of hc (fun _ => h.setTxn (h.bases p) fun _ => rfl)
    (fun hs => h.setTxn_plain hc (CtxState.plain.not_taken (.inl hs)) (.nil _ _)) (fun hs => ?_)
  have hnot : ¬ (s.txns.get p).state.taken := by
    rcases hs with hs | hs <;> rw [hs] <;> rintro (ht | ht) <;> cases ht
  have := h.discarded hc hnot (x := ⟨.none, [], none, .none, .none⟩) rfl (releaseBodies p s.pool (s.txns.get p).intents)
    (s.commitQueue.filter (fun q => q != p))
  simpa [Machine.discardTxn, leaveQueue] using this

/-- The release of snapshots: the generations held were held before. -/
theorem StoreOk.released {u : State} (h : StoreOk s) (hc : ContextsOk s) (g : u.g = s.g) (dir : u.directory = s.directory)
    (engine : u.engine = s.engine) (txns : u.txns = s.txns) (gens : ∀ x ∈ holdingGens u, x ∈ holdingGens s)
    (slotFour : u.slot4.isSome = u.image.checkpoint.isSome) : StoreOk (retireOnRelease u) :=
  (h.unswept.of_same g dir engine (fun q => by rw [txns]) (fun x hx => .inl (gens x hx)) slotFour).release
    fun q => by rw [txns]; exact (hc.contexts q).tagsDiffer

theorem StoreOk.endCheckpoint (h : StoreOk s) (hc : ContextsOk s) (r : ImageResult) : StoreOk (endCheckpoint r s) := by
  have hreleased := h.released (u := { s with image := { s.image with checkpoint := none, op := .none }, slot4 := none }) hc rfl rfl
    rfl rfl (fun x hx => ?_) rfl
  · exact hreleased.of_eq rfl rfl rfl rfl rfl rfl rfl
  · rw [mem_holdingGens] at hx ⊢
    exact .inl (hx.resolve_right (by rintro ⟨⟩))

theorem takesRequests_store : TakesRequests (fun u => ContextsOk u ∧ StoreOk u) where
  iface u p x h := ⟨takesRequests_contexts.iface u p x h.1, h.2.of_eq rfl rfl rfl rfl rfl rfl rfl⟩
  notes u n h := ⟨takesRequests_contexts.notes u n h.1, h.2.of_eq rfl rfl rfl rfl rfl rfl rfl⟩
  hold u p x hx h := by
    have states : ∀ q, ((u.setSnap p x).snaps.get q).state = (u.snaps.get q).state := fun q => by
      by_cases hq : q = p
      · subst hq
        simpa using hx
      · simp [hq]
    have gens : ∀ {g}, g ∈ holdingGens (u.setSnap p x) ↔ g ∈ holdingGens u := mem_holdingGens_of_snaps states rfl
    exact ⟨takesRequests_contexts.hold u p x hx h.1, h.2.of_same rfl rfl rfl (fun _ => rfl) (fun g hg => .inl (gens.mp hg))
      (fun g hg => gens.mpr hg) h.2.slotFour⟩
  bind u p x hs hx h := by
    refine ⟨takesRequests_contexts.bind u p x hs hx h.1, h.2.of_same rfl rfl rfl (fun _ => rfl) (fun g hg => ?_)
      (fun g hg => mem_holdingGens_of_free hs hg) h.2.slotFour⟩
    refine (mem_holdingGens_setSnap hg).imp_right fun hg => ?_
    rcases hx with hx | hx <;> rw [hx] at hg <;> rcases hg with hg | hg <;> cases hg <;> rfl
  release u p x hx h := by
    refine ⟨takesRequests_contexts.release u p x hx h.1, h.2.released h.1 rfl rfl rfl rfl (fun g hg => ?_) h.2.slotFour⟩
    refine (mem_holdingGens_setSnap hg).resolve_right fun hg => ?_
    rcases hx with hx | hx <;> rw [hx] at hg <;> rcases hg with hg | hg <;> cases hg
  txn u p hd r hr args complete h := ⟨takesRequests_contexts.txn u p hd r hr args complete h.1, h.2.takingOf_txn h.1 hr complete⟩
  resetTxn u p hd h := ⟨takesRequests_contexts.resetTxn u p hd h.1, h.2.resetTxn h.1 p⟩
  checkpoint u hd hn hs h := by
    refine ⟨takesRequests_contexts.checkpoint u hd hn hs h.1, h.2.of_same rfl rfl rfl (fun _ => rfl) (fun g hg => ?_)
      (fun g hg => ?_) rfl⟩
    · rw [mem_holdingGens] at hg ⊢
      rcases hg with hg | hg
      · exact .inl (.inl hg)
      · exact .inr (Option.some_inj.mp hg).symm
    · have h4 : u.slot4 = none := by
        have := h.2.slotFour
        rw [hn] at this
        simpa using this
      rw [mem_holdingGens] at hg ⊢
      refine .inl (hg.resolve_right ?_)
      rw [h4]
      rintro ⟨⟩
  cancel u c hd hc hst h := ⟨takesRequests_contexts.cancel u c hd hc hst h.1, h.2.endCheckpoint h.1 _⟩

/-! ### TAKE, PUBLISH and the load -/

/-- A transaction that passes reserves what its publish needs (R102). -/
theorem StoreOk.reserveTxn (h : StoreOk s) (he : s.engine = .idle) (hv : validate s (s.txns.get p).intents = none)
    (rest : List Port) : StoreOk (reserveTxn p (takenState p rest s)) := by
  simp only [validate] at hv
  split at hv
  · cases hv
  next hg =>
    split at hv
    · cases hv
    next hconflict =>
      split at hv
      · cases hv
      next hentries =>
        split at hv
        · cases hv
        next hslots =>
          have hu := h.unswept
          have hroom := hu.entryRoom
          have hslotRoom := hu.slotRoom
          have hv256 : Config.versionEntries = 256 := rfl
          have hd128 : Config.directorySlots = 128 := rfl
          have hself : ((takenState p rest s).txns.get p).intents = (s.txns.get p).intents := by simp
          have hintents : ∀ q, ((takenState p rest s).txns.get q).intents = (s.txns.get q).intents :=
            setTxn_forall (s := { s with commitQueue := rest }) (Q := fun q y => y.intents = (s.txns.get q).intents) rfl
              fun _ _ => rfl
          rw [freeEntries, he, hv256, reservedEntries, Nat.sub_zero] at hentries
          rw [freeSlots, he, hd128, reservedSlots, Nat.sub_zero, slotsNeeded_eq] at hslots
          rw [he, reservedEntries] at hroom
          rw [he, reservedSlots] at hslotRoom
          refine StoreUnswept.storeOk ⟨hu.dir, hu.gPositive, hu.snapGens, hu.slotFour, fun q => ?_, fun c hc => ?_, ?_, ?_⟩ h.seen
          · exact (hintents q).symm ▸ hu.bases q
          · cases hc
            refine ⟨hg, ?_, ?_, ?_⟩
            · rw [show ((Machine.reserveTxn p (takenState p rest s)).txns.get p).intents = _ from hself]
              exact firstConflict_eq_none_iff.mp hconflict
            · rfl
            · exact slotsNeeded_eq _ _
          · show entriesInUse s.directory + ((takenState p rest s).txns.get p).intents.length ≤ 256
            rw [hself]
            omega
          · show s.directory.length + slotsNeeded s.directory ((takenState p rest s).txns.get p).intents ≤ 128
            rw [hself, slotsNeeded_eq]
            omega

theorem StoreOk.chainSeen (h : StoreOk s) (tag : Tag) : chainSeen (holdingGens s) (chainOf s.directory tag) := by
  rcases chainOf_mem_or_nil s.directory tag with hn | ⟨d, hd, -, hc⟩
  · rw [hn]
    trivial
  · exact hc ▸ h.seen d hd

theorem chainSeen_tail {gens : List Gen} {chain : List Version} (h : Machine.chainSeen gens chain) :
    Machine.chainSeen gens chain.tail := by
  match chain with
  | [] => trivial
  | [_] => trivial
  | _ :: _ :: _ => exact h.2

/-- What TAKE has checked still holds of the state on which the retirement of the publish runs. -/
theorem StoreOk.installedState (h : StoreOk s) (hc : ContextsOk s) {c : Commit} (he : s.engine = .digesting c) :
    DirOk (s.g + 1#32) (installedState c s).directory := by
  obtain ⟨hroom, hpass, -, -⟩ := h.unswept.promised c he
  have hlt : s.g < s.g + 1#32 := by bv_omega
  exact h.dirOk.installAll hlt (BitVec.le_trans h.gPositive (BitVec.le_of_lt hlt)) (hc.contexts c.port).tagsDiffer hpass

theorem publishCheck_retires_installed (h : StoreOk s) (hc : ContextsOk s) {c : Commit} (he : s.engine = .digesting c)
    (gens : List Gen) (changed : List Tag) :
    ∀ d ∈ (Machine.installedState c s).directory, Retires d.chain (publishCheck gens changed d) := fun d hd =>
  have hdir := h.installedState hc he
  publishCheck_retires gens (hdir.occupied d hd) (hdir.chains d hd).notLone

/-- PUBLISH leaves the store in order at the new generation count (R110, R21). -/
theorem StoreOk.publishCommit (h : StoreOk s) (hc : ContextsOk s) {c : Commit} (he : s.engine = .digesting c) :
    StoreOk (publishCommit c s) := by
  obtain ⟨hroom, hpass, hentries, hslots⟩ := h.unswept.promised c he
  have hu := h.unswept
  have hlt : s.g < s.g + 1#32 := by bv_omega
  have hnodup := (hc.contexts c.port).tagsDiffer
  have hdir := h.installedState hc he
  have hr := publishCheck_retires_installed h hc he (holdingGens (Machine.installedState c s)) ((s.txns.get c.port).intents.map Intent.tag)
  have hchain : ∀ tag, ∀ v ∈ chainOf (publishedState c s).directory tag, v ∈ chainOf s.directory tag ∨ s.g < v.gen := by
    intro tag v hv
    have hv := (chainOf_retireBy_sublist hdir hr tag).subset hv
    by_cases ht : tag ∈ (s.txns.get c.port).intents.map Intent.tag
    · obtain ⟨i, hi, rfl⟩ := List.mem_map.mp ht
      have hv : v ∈ chainOf (installAll _ _ _ _) i.tag := hv
      rw [chainOf_installAll h.tagsRise hnodup hi] at hv
      rcases List.mem_cons.mp hv with rfl | hv
      · exact .inr hlt
      · exact .inl hv
    · have hv : v ∈ chainOf (installAll _ _ _ _) tag := hv
      rw [chainOf_installAll_of_not_mem ht] at hv
      exact .inl hv
  obtain ⟨notes, heq⟩ := publishCommit_eq c s
  rw [heq]
  refine StoreUnswept.storeOk ⟨hdir.retireBy hr, ?_, fun x hx => ?_, h.slotFour,
    setTxn_forall (Q := fun _ y => basesOk (s.g + 1#32) (publishedState c s).directory y.intents) (.nil _ _)
      fun q _ => (hu.bases q).sublist (BitVec.le_of_lt hlt) hchain, nofun, ?_, ?_⟩ fun d' hd' => ?_
  · exact BitVec.le_trans h.gPositive (BitVec.le_of_lt hlt)
  · exact (h.snapGens x hx).imp_right fun hle => BitVec.le_trans hle (BitVec.le_of_lt hlt)
  · have hlost : entriesInUse (publishedState c s).directory ≤ entriesInUse (installAll _ _ _ _) := retireBy_entriesInUse hr
    rw [installAll_entriesInUse] at hlost
    have hroom := h.unswept.entryRoom
    rw [he, reservedEntries, hentries] at hroom
    exact hlost.trans hroom
  · have hlost : (publishedState c s).directory.length ≤ (Machine.installedState c s).directory.length :=
      (Nat.le_add_right _ _).trans_eq (retireBy_length (publishCheck _ _) (Machine.installedState c s))
    have hlength : (Machine.installedState c s).directory.length = s.directory.length + _ :=
      installAll_length h.tagsRise h.occupied hnodup hpass
    have hroom := h.unswept.slotRoom
    rw [he, reservedSlots, hslots, ← hlength] at hroom
    exact hlost.trans hroom
  · obtain ⟨d, hd, -, rfl⟩ := mem_retireBy_directory.mp hd'
    have hseen := h.chainSeen d.tag
    have hold : chainOf (Machine.installedState c s).directory d.tag = d.chain := hdir.chainOf hd
    by_cases ht : d.tag ∈ (s.txns.get c.port).intents.map Intent.tag
    · obtain ⟨i, hi, htag⟩ := List.mem_map.mp ht
      have hnew : chainOf (Machine.installedState c s).directory i.tag = _ := chainOf_installAll h.tagsRise hnodup hi
      rw [htag, hold] at hnew
      refine chainSeen_publishCheck _ (hdir.chains d hd).falls (fun hn => absurd ht hn) ?_
      rw [hnew]
      exact hseen
    · have hsame : chainOf (Machine.installedState c s).directory d.tag = _ := chainOf_installAll_of_not_mem ht
      rw [hold] at hsame
      refine chainSeen_publishCheck _ (hdir.chains d hd).falls (fun _ => hsame ▸ hseen) ?_
      rw [hsame]
      exact chainSeen_tail hseen

/-- The load installs an entry as the only version of a new chain (R149). -/
theorem StoreOk.installEntry (h : StoreOk s) (hidle : s.engine = .idle) (hnone : ∀ q, (s.txns.get q).intents = [])
    {e : LoadEntry} (hi : installEntry e s = some t) : StoreOk t := by
  obtain ⟨hslots, hentries, hchain, content, pool, hcontent, rfl⟩ := installEntry_inv hi
  have hu := h.unswept
  have hv256 : Config.versionEntries = 256 := rfl
  have hd128 : Config.directorySlots = 128 := rfl
  have hlive : (⟨1#32, content⟩ : Version).isTombstone = false := by
    simp only [loadContent] at hcontent
    split at hcontent
    · cases hcontent
      rfl
    · split at hcontent
      · cases hcontent
      · cases hcontent
        rfl
  refine StoreUnswept.storeOk ⟨h.dirOk.install (BitVec.le_refl _) ⟨BitVec.le_refl _, h.gPositive⟩ (fun w hw => ?_) fun _ => hlive,
    h.gPositive, h.snapGens, h.slotFour, fun q => ?_, fun c he => ?_, ?_, ?_⟩ fun d hd => ?_
  · rw [hchain] at hw
    cases hw
  · have : basesOk s.g (install s.directory e.tag ⟨1#32, content⟩) [] := .nil _ _
    rw [← hnone q] at this
    exact this
  · have he : s.engine = .digesting c := he
    rw [hidle] at he
    cases he
  · have hroom := hu.entryRoom
    show entriesInUse (install _ _ _) + reservedEntries s.engine ≤ 256
    rw [freeEntries, hidle, hv256, reservedEntries] at hentries
    rw [hidle, reservedEntries] at hroom ⊢
    rw [install_entriesInUse]
    omega
  · have hroom := hu.slotRoom
    show (install _ _ _).length + reservedSlots s.engine ≤ 128
    rw [freeSlots, hidle, hd128, reservedSlots] at hslots
    rw [hidle, reservedSlots] at hroom ⊢
    rw [install_length h.tagsRise h.occupied, if_pos hchain]
    omega
  · have hd := chainOf_of_mem (install_tagsRise h.tagsRise) hd
    by_cases ht : d.tag = e.tag
    · rw [← hd, ht, chainOf_install_of_nil hchain]
      trivial
    · rw [← hd, chainOf_install_of_ne ht]
      exact h.chainSeen d.tag

/-- Nothing is under way while the loader is at work. -/
theorem quiet_of_loader (hc : ContextsOk s) (himage : ImageOk s) (hl : s.image.loader ≠ .idle) :
    s.engine = .idle ∧ ∀ q, (s.txns.get q).state = .none ∧ (s.txns.get q).intents = [] := by
  have hloading : s.image.device = .loading := by
    cases hd : s.image.device with
    | loading => rfl
    | ready => exact absurd (himage.readyLoaded hd) hl
  obtain ⟨he, hn⟩ := hc.quiet hloading
  exact ⟨he, fun q => ⟨hn q, (hc.contexts q).noneEmpty (hn q)⟩⟩

/-- Every command keeps the store in order. -/
theorem StoreOk.exec (h : StoreOk s) (hc : ContextsOk s) (himage : ImageOk s) {c : Instr} (hexec : exec c s = .next t) :
    StoreOk t := by
  have same : ∀ {u}, SameStore s u → StoreOk u := fun hu =>
    h.of_same hu.g hu.directory hu.engine hu.intents (fun _ hx => .inl (hu.holdingGens.mp hx)) (fun _ hx => hu.holdingGens.mpr hx)
      (by rw [hu.slot4, hu.checkpoint]; exact h.slotFour)
  refine takesRequests_store.exec_store (fun hi => hc.exec himage hi) hc h same (fun r u hu => ?_) (fun p ho => ?_)
    (fun p rest o he hq _ => ?_) (fun p rest he _ hv => h.reserveTxn he hv rest) (fun c he => ?_) (fun c he _ => h.publishCommit hc he)
    (fun cause _ => storeOk_reset.of_eq rfl rfl rfl rfl rfl rfl rfl) (fun c e u v hl _ hu huv => ?_) hexec
  · have hreleased := h.unswept.of_same (t := { u with image := { u.image with checkpoint := none, op := .none }, slot4 := none })
      hu.g hu.directory hu.engine hu.intents (fun x hx => .inl ?_) rfl
    · have hnodup : ∀ q, ((u.txns.get q).intents.map Intent.tag).Nodup := fun q => by
        rw [hu.intents q]
        exact (hc.contexts q).tagsDiffer
      exact (hreleased.release hnodup).of_eq rfl rfl rfl rfl rfl rfl rfl
    · rw [← hu.holdingGens]
      rw [mem_holdingGens] at hx ⊢
      exact .inl (hx.resolve_right (by rintro ⟨⟩))
  · have := h.discarded hc (CtxState.plain.not_taken (.inr ho)) (x := ⟨.none, [], none, (s.txns.get p).refusal, .timedOut⟩) rfl
      (releaseBodies p s.pool (s.txns.get p).intents) s.commitQueue
    exact this.of_eq rfl rfl rfl rfl rfl rfl rfl
  · have hs : (s.txns.get p).state = .queued := (hc.queued p).mp (by simp [hq])
    have := h.discarded hc (by rw [hs]; rintro (ht | ht) <;> cases ht) (x := ⟨.none, [], none, (s.txns.get p).refusal, o⟩) rfl
      (releaseBodies p s.pool (s.txns.get p).intents) rest
    refine this.of_eq rfl rfl rfl ?_ rfl rfl rfl
    simp [rejectTxn, Machine.discardTxn]
  · have hkept : (c.digestPage s.pool).port = c.port ∧ (c.digestPage s.pool).reservedEntries = c.reservedEntries
        ∧ (c.digestPage s.pool).reservedSlots = c.reservedSlots := by
      simp only [Commit.digestPage]
      split
      · exact ⟨rfl, rfl, rfl⟩
      · split
        · exact ⟨rfl, rfl, rfl⟩
        · split <;> exact ⟨rfl, rfl, rfl⟩
    obtain ⟨hport, hentries, hslots⟩ := hkept
    have hu := h.unswept
    have hp := hu.promised c he
    have hroom := hu.entryRoom
    have hslotRoom := hu.slotRoom
    rw [he] at hroom hslotRoom
    refine StoreUnswept.storeOk ⟨hu.dir, hu.gPositive, hu.snapGens, hu.slotFour, hu.bases, fun c' hc' => ?_, ?_, ?_⟩ h.seen
    · cases hc'
      refine ⟨hp.gRoom, ?_, ?_, ?_⟩
      · rw [hport]
        exact hp.passes
      · rw [hport, hentries]
        exact hp.entries
      · rw [hport, hslots]
        exact hp.slots
    · show _ + (c.digestPage s.pool).reservedEntries ≤ 256
      rw [hentries]
      exact hroom
    · show _ + (c.digestPage s.pool).reservedSlots ≤ 128
      rw [hslots]
      exact hslotRoom
  · obtain ⟨hidle, hnone⟩ := quiet_of_loader hc himage (by rw [hl]; nofun)
    have hu := h.installEntry hidle (fun q => (hnone q).2) hu
    exact hu.of_same huv.g huv.directory huv.engine huv.intents (fun _ hx => .inl (huv.holdingGens.mp hx))
      (fun _ hx => huv.holdingGens.mpr hx) (by rw [huv.slot4, huv.checkpoint]; exact hu.slotFour)

/-- Settles O8: retirement keeps what is promised, and PUBLISH installs what was promised. -/
theorem storeStaysInOrder : Obligations.StoreStaysInOrder := by
  intro s t h hstep
  rcases step_cases hstep with rfl | ⟨c, rest, -, hc⟩
  · exact h.store
  · exact StoreOk.exec (s := { s with pending := rest }) (h.store.of_eq rfl rfl rfl rfl rfl rfl rfl)
      (h.contexts.of_eq rfl rfl rfl rfl rfl) { h.image with } hc

end Sys2Proof.Machine
end

section
/-! SUPPORT. The pool as a ledger of the lists that hold its pages, and what a claim makes of one staged body: the pages
that other lists hold stay. -/

namespace Sys2Proof.Machine

/-! ### The ledger (R24, R25) -/

/-- A pool whose counts are those of the lists that hold its pages, its free list the pages of count 0, each once. -/
structure Pool.Holds (pool : Pool) (held : PageNo → Nat) : Prop where
  wf : pool.Wf
  refs : ∀ m, pool.ref m = held m
  freePages : ∀ n, n ∈ pool.free ↔ n < Config.poolPages ∧ held n = 0
  freeOnce : pool.free.Nodup
  inPool : ∀ n, Config.poolPages ≤ n → held n = 0

section
variable {pool pool' : Pool} {held held' : PageNo → Nat} {n : PageNo}

theorem Pool.Holds.congr (h : pool.Holds held) (he : ∀ m, held' m = held m) : pool.Holds held' :=
  (funext he : held' = held) ▸ h

/-- The staged-owned counts are no part of the ledger. -/
theorem Pool.Holds.withStagedOwned (h : pool.Holds held) (owned : PortMap Nat) : { pool with stagedOwned := owned }.Holds held :=
  ⟨⟨h.wf.bytes, h.wf.refs⟩, h.refs, h.freePages, h.freeOnce, h.inPool⟩

theorem Pool.Holds.fill (h : pool.Holds held) (n : PageNo) (offset : Nat) (bs : List Byte) : (pool.fill n offset bs).Holds held :=
  ⟨h.wf.fill n offset bs, h.refs, h.freePages, h.freeOnce, h.inPool⟩

theorem count_singleton (n m : PageNo) : [n].count m = if m = n then 1 else 0 := by
  rw [List.count_singleton]
  exact if_congr (beq_iff_eq.trans eq_comm) rfl rfl

theorem Pool.Holds.alloc (h : pool.Holds held) {contents : List Byte} (ha : pool.alloc contents = some (n, pool')) :
    held n = 0 ∧ pool'.Holds (fun m => held m + [n].count m) := by
  have hfree := Pool.alloc_free ha
  obtain ⟨hlt, hzero⟩ := (h.freePages n).mp (by rw [hfree]; exact List.mem_cons_self)
  have honce := h.freeOnce
  rw [hfree, List.nodup_cons] at honce
  refine ⟨hzero, h.wf.alloc ha, fun m => ?_, fun m => ?_, honce.2, fun m hm => ?_⟩
  · rw [Pool.alloc_ref ha h.wf.refs, count_singleton, h.refs]
    split
    next hmn => rw [hmn, hzero]
    next => rfl
  · rw [count_singleton]
    have hold := h.freePages m
    rw [hfree, List.mem_cons] at hold
    by_cases hmn : m = n
    · subst hmn
      exact iff_of_false honce.1 (by rw [if_pos rfl]; rintro ⟨-, h0⟩; cases h0)
    · rw [if_neg hmn]
      exact ⟨fun hm => hold.mp (.inr hm), fun hm => (hold.mpr hm).resolve_left hmn⟩
  · rw [count_singleton, if_neg (by rintro rfl; exact absurd hlt (Nat.not_lt.mpr hm)), h.inPool m hm]

theorem Pool.Holds.lose (h : pool.Holds held) (n : PageNo) : (pool.lose n).Holds (fun m => held m - [n].count m) := by
  have hrefs : ∀ m, (pool.lose n).ref m = held m - [n].count m := fun m => by
    rw [Pool.lose_ref h.wf.refs, count_singleton, h.refs, h.refs]
    split
    next hmn => rw [hmn]
    next => rfl
  refine ⟨h.wf.lose n, hrefs, fun m => ?_, ?_, fun m hm => by rw [h.inPool m hm, Nat.zero_sub]⟩
  · rw [Pool.lose_free, h.refs, count_singleton]
    by_cases hmn : m = n
    · subst hmn
      have hin : held m = 1 → m < Config.poolPages := fun h1 => by
        by_contra hle
        rw [h.inPool m (Nat.not_lt.mp hle)] at h1
        cases h1
      split
      next h1 => simp [h1, hin h1]
      next h1 =>
        rw [h.freePages m, if_pos rfl]
        refine and_congr_right fun _ => ?_
        omega
    · rw [if_neg hmn, Nat.sub_zero, ← h.freePages m]
      split
      · simp [hmn]
      · rfl
  · rw [Pool.lose_free, h.refs]
    split
    next h1 =>
      refine h.freeOnce.append (List.nodup_singleton n) (List.disjoint_singleton.mpr fun hm => ?_)
      rw [((h.freePages n).mp hm).2] at h1
      cases h1
    next => exact h.freeOnce

theorem Pool.Holds.loseAll (h : pool.Holds held) (ns : List PageNo) : (pool.loseAll ns).Holds (fun m => held m - ns.count m) := by
  induction ns generalizing pool held with
  | nil => exact h
  | cons n ns ih =>
    refine (ih (h.lose n)).congr fun m => ?_
    have hcons : (n :: ns).count m = [n].count m + ns.count m := List.count_append (l₁ := [n]) (l₂ := ns) ..
    rw [hcons]
    omega

/-- Pages that some list holds gain lists. -/
theorem Pool.Holds.gainAll (h : pool.Holds held) {ns : List PageNo} (hns : ∀ n ∈ ns, held n ≠ 0) :
    (pool.gainAll ns).Holds (fun m => held m + ns.count m) := by
  refine ⟨h.wf.gainAll ns, fun m => by rw [Pool.gainAll_ref h.wf.refs, h.refs], fun m => ?_, ?_, fun m hm => ?_⟩
  · rw [Pool.gainAll_free, h.freePages]
    refine and_congr_right fun _ => ⟨fun hz => ?_, fun hz => by omega⟩
    rw [List.count_eq_zero_of_not_mem fun hm => hns m hm hz, hz]
  · rw [Pool.gainAll_free]
    exact h.freeOnce
  · rw [List.count_eq_zero_of_not_mem fun hn => hns m hn (h.inPool m hm), h.inPool m hm]

/-- The pages of different lists that have no other holder join the free list in their order. -/
theorem Pool.Holds.loseAll_free (h : pool.Holds held) {ns : List PageNo} (hnodup : ns.Nodup) :
    (pool.loseAll ns).free = pool.free ++ ns.filter (fun n => decide (pool.ref n = 1)) := by
  induction ns generalizing pool held with
  | nil => simp [Pool.loseAll]
  | cons n ns ih =>
    obtain ⟨hn, hns⟩ := List.nodup_cons.mp hnodup
    have hsame : ns.filter (fun m => decide ((pool.lose n).ref m = 1)) = ns.filter (fun m => decide (pool.ref m = 1)) :=
      List.filter_congr fun m hm => by
        rw [Pool.lose_ref h.wf.refs, if_neg (by rintro rfl; exact hn hm)]
    rw [Pool.loseAll_cons, ih (h.lose n) hns, hsame, Pool.lose_free, List.filter_cons]
    by_cases h1 : pool.ref n = 1
    · simp [h1]
    · simp [h1]

end

/-! ### One staged body among the lists of the pool -/

/-- A pool whose pages are held by one staged body, each page at most once, and by other lists; a staged-owned page by no
other list (R28). -/
structure BodyIn (others : PageNo → Nat) (pool : Pool) (body : StagedBody) : Prop where
  holds : pool.Holds (fun m => others m + body.pageNos.count m)
  nodup : body.pageNos.Nodup
  owned : ∀ x ∈ body.pages, x.owned = true → others x.page = 0

/-- What a step of a claim leaves: pages `freed` by it have joined the free list, `taken` pages have been taken from its
head and are staged-owned, `released` staged-owned pages have left the body, pages that other lists hold keep their
bytes, and a page new to the body is in no other list. -/
structure Claimed (others : PageNo → Nat) (freed : List PageNo) (released taken : Nat) (pool : Pool) (body : StagedBody)
    (pool' : Pool) (body' : StagedBody) : Prop where
  after : BodyIn others pool' body'
  kept : ∀ m, others m ≠ 0 → ∀ j, j < 32 → pool'.pageByte m j = pool.pageByte m j
  stagedOwned : pool'.stagedOwned = pool.stagedOwned
  free : pool'.free = (pool.free ++ freed).drop taken
  room : taken ≤ (pool.free ++ freed).length
  ownedCount : body'.ownedCount + released = body.ownedCount + taken
  origin : ∀ m ∈ body'.pageNos, m ∈ body.pageNos ∨ others m = 0

section
variable {others : PageNo → Nat} {pool pool' pool'' : Pool} {body body' body'' : StagedBody} {i n : Nat}

theorem BodyIn.ref (h : BodyIn others pool body) {x : StagedPage} (hx : x ∈ body.pages) : pool.ref x.page = others x.page + 1 := by
  rw [h.holds.refs, List.count_eq_one_of_mem h.nodup (List.mem_map_of_mem hx)]

theorem Claimed.refl (h : BodyIn others pool body) : Claimed others [] 0 0 pool body pool body :=
  ⟨h, fun _ _ _ _ => rfl, rfl, by simp, Nat.zero_le _, rfl, fun _ hm => .inl hm⟩

theorem Claimed.trans {freed : List PageNo} {released a b : Nat} (h : Claimed others freed released a pool body pool' body')
    (h' : Claimed others [] 0 b pool' body' pool'' body'') : Claimed others freed released (a + b) pool body pool'' body'' where
  after := h'.after
  kept m hm j hj := (h'.kept m hm j hj).trans (h.kept m hm j hj)
  stagedOwned := h'.stagedOwned.trans h.stagedOwned
  free := by rw [h'.free, List.append_nil, h.free, List.drop_drop]
  room := by
    have h1 := h.room
    have h2 := h'.room
    rw [List.append_nil, h.free, List.length_drop] at h2
    omega
  ownedCount := by
    have h1 := h.ownedCount
    have h2 := h'.ownedCount
    omega
  origin m hm := (h'.origin m hm).elim (h.origin m) .inr

theorem pageNos_getElem? (body : StagedBody) (k : Nat) : body.pageNos[k]? = (body.pages[k]?).map StagedPage.page :=
  List.getElem?_map ..

theorem bodyByte_of_page {x : StagedPage} {k : Nat} (h : body.pages[k / 32]? = some x) :
    pool.bodyByte body.pageNos k = pool.pageByte x.page (k % 32) :=
  Pool.bodyByte_of_get (by rw [pageNos_getElem?, h]; rfl)

theorem bodyByte_of_no_page {k : Nat} (h : body.pages[k / 32]? = none) : pool.bodyByte body.pageNos k = 0#8 := by
  rw [Pool.bodyByte_eq, pageNos_getElem?, h]
  rfl

/-! ### A page appended and a page copied (R30 to R32) -/

/-- The body with a fresh page behind its last one. -/
def StagedBody.appended (body : StagedBody) (n : PageNo) : StagedBody := { body with pages := body.pages ++ [⟨n, true⟩] }

/-- The body with a fresh page in the place of its page `i`. -/
def StagedBody.replaced (body : StagedBody) (i : Nat) (n : PageNo) : StagedBody :=
  { body with pages := body.pages.set i ⟨n, true⟩ }

theorem BodyIn.fresh (h : BodyIn others pool body) {contents : List Byte} (ha : pool.alloc contents = some (n, pool')) :
    others n = 0 ∧ n ∉ body.pageNos := by
  have hz := (h.holds.alloc ha).1
  have hcount : body.pageNos.count n = 0 := by omega
  exact ⟨by omega, List.count_eq_zero.mp hcount⟩

theorem BodyIn.append (h : BodyIn others pool body) (ha : pool.alloc [] = some (n, pool')) :
    Claimed others [] 0 1 pool body pool' (body.appended n)
      ∧ ∀ k, pool'.bodyByte (body.appended n).pageNos k = pool.bodyByte body.pageNos k := by
  obtain ⟨hother, hout⟩ := h.fresh ha
  have hpages : (body.appended n).pageNos = body.pageNos ++ [n] := List.map_append
  have hfree := Pool.alloc_free ha
  refine ⟨⟨⟨?_, ?_, fun x hx hown => ?_⟩, fun m hm j hj => ?_, Pool.alloc_stagedOwned ha, ?_, ?_, ?_,
    fun m hm => ?_⟩, fun k => ?_⟩
  · rw [hpages]
    exact (h.holds.alloc ha).2.congr fun m => by rw [List.count_append, Nat.add_assoc]
  · rw [hpages]
    exact h.nodup.append (List.nodup_singleton n) (List.disjoint_singleton.mpr hout)
  · rcases List.mem_append.mp hx with hx | hx
    · exact h.owned x hx hown
    · obtain rfl := List.mem_singleton.mp hx
      exact hother
  · rw [Pool.alloc_pageByte ha h.holds.wf.bytes (Nat.zero_le _) m hj, if_neg (by rintro rfl; exact hm hother)]
  · rw [hfree]
    simp
  · rw [hfree]
    simp
  · simp [StagedBody.ownedCount, StagedBody.appended]
  · rw [hpages, List.mem_append, List.mem_singleton] at hm
    exact hm.imp_right fun (e : m = n) => e ▸ hother
  · have hbyte := fun m (j : Nat) (hj : j < 32) => Pool.alloc_pageByte ha h.holds.wf.bytes (Nat.zero_le _) m hj
    rw [hpages, Pool.bodyByte_eq, Pool.bodyByte_eq]
    have hmod : k % 32 < 32 := Nat.mod_lt k (by decide)
    rcases Nat.lt_trichotomy (k / 32) body.pageNos.length with hlt | heq | hgt
    · rw [List.getElem?_append_left hlt, List.getElem?_eq_getElem hlt]
      refine (hbyte _ _ hmod).trans (if_neg fun he => hout ?_)
      exact he ▸ List.getElem_mem hlt
    · rw [List.getElem?_append_right (Nat.le_of_eq heq.symm), heq, Nat.sub_self, List.getElem?_eq_none (Nat.le_refl _)]
      exact (hbyte n _ hmod).trans (if_pos rfl)
    · rw [List.getElem?_eq_none (by simpa using hgt), List.getElem?_eq_none (Nat.le_of_lt hgt)]

/-- A page that other lists hold too is replaced by a fresh one with other contents. -/
theorem BodyIn.replace (h : BodyIn others pool body) {x : StagedPage} (hx : body.pages[i]? = some x) (hshared : others x.page ≠ 0)
    {contents : List Byte} (hlen : contents.length ≤ 32) (ha : pool.alloc contents = some (n, pool')) :
    Claimed others [] 0 1 pool body (pool'.lose x.page) (body.replaced i n)
      ∧ ∀ k, (pool'.lose x.page).bodyByte (body.replaced i n).pageNos k
        = if k / 32 = i then contents.getD (k % 32) 0#8 else pool.bodyByte body.pageNos k := by
  obtain ⟨hother, hout⟩ := h.fresh ha
  obtain ⟨hi, hxi⟩ := List.getElem?_eq_some_iff.mp hx
  have hmem : x ∈ body.pages := List.mem_of_getElem? hx
  have hpages : (body.replaced i n).pageNos = body.pageNos.set i n := List.map_set
  have hi' : i < body.pageNos.length := by simpa [StagedBody.pageNos] using hi
  have hget : body.pageNos[i] = x.page := by simp [StagedBody.pageNos, hxi]
  have hone : body.pageNos.count x.page = 1 := List.count_eq_one_of_mem h.nodup (List.mem_map_of_mem hmem)
  have hfree := Pool.alloc_free ha
  have hnx : n ≠ x.page := by rintro rfl; exact hshared hother
  have hbyte : ∀ m (j : Nat), j < 32 → (pool'.lose x.page).pageByte m j = if m = n then contents.getD j 0#8 else pool.pageByte m j :=
    fun m j hj => by
      rw [Pool.pageByte, Pool.lose_bytes]
      exact Pool.alloc_pageByte ha h.holds.wf.bytes hlen m hj
  refine ⟨⟨⟨?_, ?_, fun y hy hown => ?_⟩, fun m hm j hj => ?_, ?_, ?_, ?_, ?_, fun m hm => ?_⟩, fun k => ?_⟩
  · rw [hpages]
    refine ((h.holds.alloc ha).2.lose x.page).congr fun m => ?_
    rw [List.count_set hi', hget, count_singleton, count_singleton]
    simp only [beq_iff_eq, eq_comm (b := m)]
    by_cases hmx : m = x.page
    · subst hmx
      rw [if_pos rfl, if_neg hnx.symm, hone]
      omega
    · rw [if_neg hmx]
      omega
  · rw [hpages]
    exact h.nodup.set hout
  · rcases List.mem_or_eq_of_mem_set hy with hy | rfl
    · exact h.owned y hy hown
    · exact hother
  · rw [hbyte m j hj, if_neg (by rintro rfl; exact hm hother)]
  · rw [Pool.lose_stagedOwned, Pool.alloc_stagedOwned ha]
  · have href : pool'.ref x.page ≠ 1 := by
      rw [Pool.alloc_ref ha h.holds.wf.refs, if_neg hnx.symm, h.ref hmem]
      omega
    rw [Pool.lose_free, if_neg href, hfree]
    simp
  · rw [hfree]
    simp
  · have hunowned : x.owned = false := by
      rw [← Bool.not_eq_true]
      exact fun ho => hshared (h.owned x hmem ho)
    have : ∀ (l : List StagedPage) (j : Nat), l[j]? = some x →
        (l.set j ⟨n, true⟩).countP (fun x => x.owned) = l.countP (fun x => x.owned) + 1 := by
      intro l
      induction l with
      | nil => exact fun j hj => by cases hj
      | cons y rest ih =>
        intro j hj
        cases j with
        | zero =>
          cases hj
          simp [hunowned]
        | succ j =>
          rw [List.set_cons_succ, List.countP_cons, List.countP_cons, ih j hj]
          omega
    exact this body.pages i hx
  · rw [hpages] at hm
    exact (List.mem_or_eq_of_mem_set hm).imp_right fun (e : m = n) => e ▸ hother
  · rw [hpages, Pool.bodyByte_eq, Pool.bodyByte_eq, List.getElem?_set]
    have hmod : k % 32 < 32 := Nat.mod_lt k (by decide)
    by_cases hk : k / 32 = i
    · rw [if_pos hk.symm, if_pos hi', if_pos hk]
      exact (hbyte n _ hmod).trans (if_pos rfl)
    · rw [if_neg (Ne.symm hk), if_neg hk]
      cases hp : body.pageNos[k / 32]? with
      | none => rfl
      | some m =>
        refine (hbyte m _ hmod).trans (if_neg ?_)
        rintro rfl
        exact hout (List.mem_of_getElem? hp)

end

end Sys2Proof.Machine
end

section
/-! SUPPORT. WRITE and RESIZE on one staged body: when the free list runs short, what they allocate, and the body that
they leave (R30 to R32). -/

namespace Sys2Proof.Machine

variable {others : PageNo → Nat} {pool pool' : Pool} {body body' : StagedBody}

/-- A touched page of a body needs a fresh one: it lies past the last page, or other lists hold it too (R30). -/
def needsPage (others : PageNo → Nat) (body : StagedBody) (k : Nat) : Bool :=
  match body.pages[k]? with
  | none => true
  | some x => others x.page != 0

theorem needsPage_of_none {k : Nat} (h : body.pages[k]? = none) : needsPage others body k = true := by
  simp only [needsPage, h]

theorem needsPage_of_some {k : Nat} {x : StagedPage} (h : body.pages[k]? = some x) :
    needsPage others body k = true ↔ others x.page ≠ 0 := by
  simp only [needsPage, h, bne_iff_ne]

/-! ### Touched pages (R30) -/

/-- What touching page `i` leaves: it is there and no other list holds it; the other pages and all bytes stay. -/
structure Touched (others : PageNo → Nat) (i taken : Nat) (pool : Pool) (body : StagedBody) (pool' : Pool) (body' : StagedBody) :
    Prop extends Claimed others [] 0 taken pool body pool' body' where
  length : body'.length = body.length
  pages : body'.pages.length = max body.pages.length (i + 1)
  bytes : ∀ k, pool'.bodyByte body'.pageNos k = pool.bodyByte body.pageNos k
  sole : ∃ x, body'.pages[i]? = some x ∧ others x.page = 0
  rest : ∀ k, k ≠ i → body'.pages[k]? = body.pages[k]?

theorem touchPage_short {i : Nat} (h : BodyIn others pool body) (hn : needsPage others body i = true) (hf : pool.free = []) :
    touchPage pool body i = none := by
  unfold touchPage
  split
  next => rw [Pool.alloc_of_nil hf]
  next x hx =>
    have hshared := (needsPage_of_some hx).mp hn
    rw [if_pos (by rw [h.ref (List.mem_of_getElem? hx)]; omega), Pool.alloc_of_nil hf]

theorem touchPage_granted {i : Nat} (h : BodyIn others pool body) (hi : i ≤ body.pages.length)
    (hroom : needsPage others body i = true → pool.free ≠ []) : ∃ pool' body', touchPage pool body i = some (pool', body')
      ∧ Touched others i (if needsPage others body i = true then 1 else 0) pool body pool' body' := by
  cases hp : body.pages[i]? with
  | none =>
    have hlast : i = body.pages.length := Nat.le_antisymm hi (List.getElem?_eq_none_iff.mp hp)
    have hn := needsPage_of_none (others := others) hp
    obtain ⟨n, rest, hf⟩ := List.exists_cons_of_ne_nil (hroom hn)
    obtain ⟨pool', ha⟩ := Pool.alloc_of_cons hf []
    obtain ⟨hc, hbytes⟩ := h.append ha
    refine ⟨pool', body.appended n, ?_, ?_⟩
    · simp only [touchPage, hp, ha]
      rfl
    · rw [if_pos hn]
      refine ⟨hc, rfl, ?_, hbytes, ⟨⟨n, true⟩, ?_, (h.fresh ha).1⟩, fun k hk => ?_⟩
      · simp [StagedBody.appended, hlast]
      · simp [StagedBody.appended, hlast]
      · rcases Nat.lt_or_gt_of_ne hk with hlt | hgt
        · rw [StagedBody.appended, List.getElem?_append_left (by omega)]
        · have hone : (body.appended n).pages.length = body.pages.length + 1 := List.length_append
          rw [List.getElem?_eq_none (by omega), List.getElem?_eq_none (by omega)]
  | some x =>
    have hmem := List.mem_of_getElem? hp
    obtain ⟨hlt, -⟩ := List.getElem?_eq_some_iff.mp hp
    by_cases hs : others x.page = 0
    · have hn : ¬ needsPage others body i = true := fun hn => (needsPage_of_some hp).mp hn hs
      refine ⟨pool, body, ?_, ?_⟩
      · simp only [touchPage, hp]
        rw [if_neg (by rw [h.ref hmem]; omega)]
      · rw [if_neg hn]
        exact ⟨.refl h, rfl, by omega, fun _ => rfl, ⟨x, hp, hs⟩, fun _ _ => rfl⟩
    · have hn := (needsPage_of_some hp).mpr hs
      obtain ⟨n, rest, hf⟩ := List.exists_cons_of_ne_nil (hroom hn)
      obtain ⟨pool', ha⟩ := Pool.alloc_of_cons hf (pool.page x.page)
      obtain ⟨hc, hbytes⟩ := h.replace hp hs (Nat.le_of_eq (Pool.page_length ..)) ha
      refine ⟨pool'.lose x.page, body.replaced i n, ?_, ?_⟩
      · simp only [touchPage, hp]
        rw [if_pos (by rw [h.ref hmem]; omega), ha]
        rfl
      · rw [if_pos hn]
        refine ⟨hc, rfl, ?_, fun k => ?_, ⟨⟨n, true⟩, ?_, (h.fresh ha).1⟩, fun k hk => ?_⟩
        · simp [StagedBody.replaced]
          omega
        · rw [hbytes k]
          split
          next hk =>
            rw [Pool.page_getD _ _ (Nat.mod_lt k (by decide))]
            exact (bodyByte_of_page (hk ▸ hp)).symm
          next => rfl
        · simp [StagedBody.replaced, hlt]
        · rw [StagedBody.replaced, List.getElem?_set, if_neg (Ne.symm hk)]

/-- What touching the pages from `i` up to `i + k` leaves. -/
structure TouchedAll (others : PageNo → Nat) (i k taken : Nat) (pool : Pool) (body : StagedBody) (pool' : Pool)
    (body' : StagedBody) : Prop extends Claimed others [] 0 taken pool body pool' body' where
  length : body'.length = body.length
  pages : body'.pages.length = max body.pages.length (i + k)
  bytes : ∀ m, pool'.bodyByte body'.pageNos m = pool.bodyByte body.pageNos m
  sole : ∀ j, i ≤ j → j < i + k → ∃ x, body'.pages[j]? = some x ∧ others x.page = 0
  rest : ∀ j, j < i ∨ i + k ≤ j → body'.pages[j]? = body.pages[j]?

/-- How many of the pages from `i` up to `i + k` need a fresh one. -/
def pagesNeeded (others : PageNo → Nat) (body : StagedBody) (i k : Nat) : Nat :=
  (List.range' i k).countP (needsPage others body)

theorem pagesNeeded_succ (others : PageNo → Nat) (body : StagedBody) (i k : Nat) : pagesNeeded others body i (k + 1)
    = pagesNeeded others body (i + 1) k + if needsPage others body i = true then 1 else 0 := by
  rw [pagesNeeded, List.range'_succ, List.countP_cons]
  rfl

theorem touchPages_cases {i k : Nat} (h : BodyIn others pool body) (hi : i ≤ body.pages.length) :
    (pool.free.length < pagesNeeded others body i k ∧ touchPages (List.range' i k) pool body = none)
      ∨ (pagesNeeded others body i k ≤ pool.free.length
        ∧ ∃ pool' body', touchPages (List.range' i k) pool body = some (pool', body')
          ∧ TouchedAll others i k (pagesNeeded others body i k) pool body pool' body') := by
  induction k generalizing i pool body with
  | zero =>
    exact .inr ⟨Nat.zero_le _, pool, body, rfl, .refl h, rfl, by omega, fun _ => rfl, fun j h1 h2 => absurd h2 (by omega),
      fun _ _ => rfl⟩
  | succ k ih =>
    rw [List.range'_succ, touchPages, pagesNeeded_succ]
    by_cases hshort : needsPage others body i = true ∧ pool.free = []
    · refine .inl ⟨?_, by rw [touchPage_short h hshort.1 hshort.2]⟩
      rw [hshort.2, if_pos hshort.1]
      exact Nat.succ_pos _
    · obtain ⟨pool1, body1, ht, hd⟩ := touchPage_granted h hi fun hn hf => hshort ⟨hn, hf⟩
      have hsame : pagesNeeded others body1 (i + 1) k = pagesNeeded others body (i + 1) k :=
        List.countP_congr fun j hj => by
          have hne : j ≠ i := fun e => by
            have := List.left_le_of_mem_range' hj
            omega
          simp only [needsPage, hd.rest j hne]
      have hi1 : i + 1 ≤ body1.pages.length := by
        rw [hd.pages]
        omega
      have hfree : pool1.free.length + (if needsPage others body i = true then 1 else 0) = pool.free.length := by
        have hroom := hd.room
        rw [hd.free, List.append_nil, List.length_drop]
        rw [List.append_nil] at hroom
        omega
      rw [ht]
      dsimp only
      rcases ih hd.after hi1 with ⟨hlt, hnone⟩ | ⟨hle, pool', body', hsome, hall⟩
      · refine .inl ⟨?_, hnone⟩
        rw [hsame] at hlt
        omega
      · refine .inr ⟨?_, pool', body', hsome, ?_⟩
        · rw [hsame] at hle
          omega
        · have hc := hd.toClaimed.trans hall.toClaimed
          rw [hsame, Nat.add_comm] at hc
          refine ⟨hc, hall.length.trans hd.length, ?_, fun m => (hall.bytes m).trans (hd.bytes m),
            fun j h1 h2 => ?_, fun j hj => ?_⟩
          · rw [hall.pages, hd.pages]
            omega
          · by_cases hji : j = i
            · subst hji
              rw [hall.rest j (.inl (Nat.lt_succ_self j))]
              exact hd.sole
            · exact hall.sole j (by omega) (by omega)
          · rw [hall.rest j (by omega), hd.rest j (by omega)]

end Sys2Proof.Machine
end

section
/-! SUPPORT. The body that a granted WRITE or RESIZE leaves, its bytes one by one, and the pages that it takes and frees. -/

namespace Sys2Proof.Machine

variable {others : PageNo → Nat} {pool pool' : Pool} {body body' : StagedBody}

/-- What a claim leaves of the body that it starts from: a length, a page list in order, and every byte. -/
structure ClaimedAs (others : PageNo → Nat) (freed : List PageNo) (released taken : Nat) (pool : Pool) (body : StagedBody)
    (pool' : Pool) (body' : StagedBody) (length : Nat) (contents : Nat → Byte) : Prop
    extends Claimed others freed released taken pool body pool' body' where
  length : body'.length = length
  listOk : body'.listOk
  bytes : ∀ k, pool'.bodyByte body'.pageNos k = contents k

theorem ClaimedAs.tailClear {freed : List PageNo} {released taken length : Nat} {contents : Nat → Byte}
    (h : ClaimedAs others freed released taken pool body pool' body' length contents)
    (clear : ∀ k, length ≤ k → contents k = 0#8) : tailClear pool' body'.length body'.pageNos := fun k hk _ =>
  (h.bytes k).trans (clear k (h.length ▸ hk))

/-- Past the length of a body in order every byte of its list reads as 0x00 (R26). -/
theorem bodyByte_past_end {pages : List PageNo} {length : Nat} (h : tailClear pool length pages) {k : Nat} (hk : length ≤ k) :
    pool.bodyByte pages k = 0#8 := by
  by_cases hlt : k < 32 * pages.length
  · exact h k hk hlt
  · exact Pool.bodyByte_of_past (Nat.not_lt.mp hlt)

theorem pagesFor_eq (length : Nat) : pagesFor length = (length + 31) / 32 := rfl

theorem StagedBody.listOk_iff (b : StagedBody) :
    b.listOk ↔ b.length ≤ 2048 ∧ b.pages.length = (b.length + 31) / 32 ∧ b.pageNos.Nodup := Iff.rfl

/-! ### Bytes written in place -/

/-- Bytes written into a page of the body that no other list holds. -/
theorem BodyIn.fill (h : BodyIn others pool body) {i : Nat} {x : StagedPage} (hx : body.pages[i]? = some x)
    (hsole : others x.page = 0) {off : Nat} {bs : List Byte} (hroom : off + bs.length ≤ 32) :
    Claimed others [] 0 0 pool body (pool.fill x.page off bs) body
      ∧ ∀ k, (pool.fill x.page off bs).bodyByte body.pageNos k
        = if k / 32 = i ∧ off ≤ k % 32 ∧ k % 32 < off + bs.length then bs.getD (k % 32 - off) 0#8
          else pool.bodyByte body.pageNos k := by
  have hbyte : ∀ (m : Nat) (j : Nat), j < 32 → (pool.fill x.page off bs).pageByte m j
      = if m = x.page ∧ off ≤ j ∧ j < off + bs.length then bs.getD (j - off) 0#8 else pool.pageByte m j := by
    intro m j hj
    have hwrite := cellRead_writeBlock 0#8 h.holds.wf.bytes (32 * x.page + off) bs (32 * m + j)
    have hplace : ∀ n : Nat, (32 * n + off ≤ 32 * m + j ∧ 32 * m + j < 32 * n + off + bs.length)
        ↔ m = n ∧ off ≤ j ∧ j < off + bs.length := by intro n; omega
    refine hwrite.trans ?_
    rw [if_congr (hplace x.page) rfl rfl]
    split
    next hin =>
      have hshift : ∀ n : Nat, m = n → 32 * m + j - (32 * n + off) = j - off := by intro n; omega
      rw [hshift x.page hin.1]
    next => rfl
  refine ⟨⟨⟨h.holds.fill .., h.nodup, h.owned⟩, fun m hm j hj => ?_, rfl, (List.append_nil _).symm, Nat.zero_le _, rfl,
    fun _ hm => .inl hm⟩, fun k => ?_⟩
  · rw [hbyte m j hj, if_neg (by rintro ⟨rfl, -⟩; exact hm hsole)]
  · have hmod : k % 32 < 32 := Nat.mod_lt k (by decide)
    have hi : body.pageNos[i]? = some x.page := by rw [pageNos_getElem?, hx]; rfl
    by_cases hk : k / 32 = i
    · have hxk : body.pages[k / 32]? = some x := by rw [hk]; exact hx
      rw [bodyByte_of_page hxk, bodyByte_of_page hxk, hbyte _ _ hmod]
      exact if_congr (by simp [hk]) rfl rfl
    · rw [if_neg (fun hin => hk hin.1), Pool.bodyByte_eq, Pool.bodyByte_eq]
      cases hp : body.pageNos[k / 32]? with
      | none => rfl
      | some m =>
        refine (hbyte m _ hmod).trans (if_neg ?_)
        rintro ⟨rfl, -⟩
        obtain ⟨hlt, -⟩ := List.getElem?_eq_some_iff.mp hp
        exact hk ((List.getElem?_inj hlt h.nodup).mp (hp.trans hi.symm))

/-- The data of a WRITE, in pages that no other list holds (R30). -/
theorem BodyIn.storeBody (h : BodyIn others pool body) {offset : Nat} {data : List Byte}
    (sole : ∀ k, offset ≤ k → k < offset + data.length → ∃ x, body.pages[k / 32]? = some x ∧ others x.page = 0) :
    Claimed others [] 0 0 pool body (storeBody body offset data pool) body
      ∧ ∀ k, (Machine.storeBody body offset data pool).bodyByte body.pageNos k
        = if offset ≤ k ∧ k < offset + data.length then data.getD (k - offset) 0#8 else pool.bodyByte body.pageNos k := by
  induction data generalizing pool offset with
  | nil => exact ⟨.refl h, fun k => (if_neg (by simp)).symm⟩
  | cons b bs ih =>
    obtain ⟨x, hx, hsole⟩ := sole offset (Nat.le_refl _) (by simp)
    have hmod : offset % 32 < 32 := Nat.mod_lt offset (by decide)
    obtain ⟨hfill, hfilled⟩ := h.fill hx hsole (off := offset % 32) (bs := [b]) (by simpa using hmod)
    obtain ⟨hrest, hbytes⟩ := ih hfill.after (offset := offset + 1) fun k h1 h2 => sole k (by omega) (by simp; omega)
    have hstep : Machine.storeBody body offset (b :: bs) pool
        = Machine.storeBody body (offset + 1) bs (pool.fill x.page (offset % 32) [b]) := by
      have hx' : body.pages[offset / Config.pageSize]? = some x := hx
      simp only [Machine.storeBody, hx']
      rfl
    rw [hstep]
    refine ⟨hfill.trans hrest, fun k => ?_⟩
    rw [hbytes k, hfilled k, List.length_singleton, List.length_cons]
    by_cases hk : k = offset
    · subst hk
      rw [if_neg (by omega), if_pos ⟨rfl, Nat.le_refl _, Nat.lt_succ_self _⟩, if_pos ⟨Nat.le_refl _, by omega⟩, Nat.sub_self,
        Nat.sub_self]
      rfl
    · by_cases hin : offset + 1 ≤ k ∧ k < offset + 1 + bs.length
      · have hshift : k - offset = (k - (offset + 1)) + 1 := by omega
        rw [if_pos hin, if_pos ⟨by omega, by omega⟩, hshift]
        rfl
      · rw [if_neg hin, if_neg (by omega), if_neg (by omega)]

/-! ### WRITE (R30) -/

theorem touchedBy_eq (offset count : Nat) :
    touchedBy offset count = List.range' (offset / 32) ((offset + count - 1) / 32 + 1 - offset / 32) := by
  rw [List.range'_eq_map_range]
  rfl

/-- How many fresh pages a WRITE needs: those touched past the last page, and those that other lists hold too. -/
def writeNeeds (others : PageNo → Nat) (body : StagedBody) (offset count : Nat) : Nat :=
  pagesNeeded others body (offset / 32) ((offset + count - 1) / 32 + 1 - offset / 32)

/-- The bytes of a body after a WRITE. -/
def writtenByte (old : Nat → Byte) (offset : Nat) (data : List Byte) (k : Nat) : Byte :=
  if offset ≤ k ∧ k < offset + data.length then data.getD (k - offset) 0#8 else old k

theorem writeBody_cases {offset : Nat} {data : List Byte} (h : BodyIn others pool body) (hlist : body.listOk)
    (hne : data ≠ []) (hoffset : offset ≤ body.length) (hroom : offset + data.length ≤ 2048) :
    (pool.free.length < writeNeeds others body offset data.length ∧ writeBody offset data pool body = none)
      ∨ (writeNeeds others body offset data.length ≤ pool.free.length
        ∧ ∃ pool' body', writeBody offset data pool body = some (pool', body')
          ∧ ClaimedAs others [] 0 (writeNeeds others body offset data.length) pool body pool' body'
            (max body.length (offset + data.length)) (writtenByte (pool.bodyByte body.pageNos) offset data)) := by
  obtain ⟨hmax, hpages, hnodup⟩ := (StagedBody.listOk_iff body).mp hlist
  have hpos : 0 < data.length := List.length_pos_iff.mpr hne
  unfold writeBody
  rw [touchedBy_eq]
  rcases touchPages_cases (i := offset / 32) (k := (offset + data.length - 1) / 32 + 1 - offset / 32) h
    (by rw [hpages]; omega) with ⟨hlt, hnone⟩ | ⟨hle, pool1, body1, hsome, hall⟩
  · exact .inl ⟨hlt, by rw [hnone]⟩
  · have hlast : offset / 32 + ((offset + data.length - 1) / 32 + 1 - offset / 32) = (offset + data.length - 1) / 32 + 1 := by omega
    have hsole : ∀ k, offset ≤ k → k < offset + data.length → ∃ x, body1.pages[k / 32]? = some x ∧ others x.page = 0 := by
      intro k h1 h2
      exact hall.sole (k / 32) (by omega) (by rw [hlast]; omega)
    obtain ⟨hstore, hbytes⟩ := hall.after.storeBody hsole
    refine .inr ⟨hle, _, _, by rw [hsome], ?_⟩
    have hc := hall.toClaimed.trans hstore
    refine ⟨⟨⟨hc.after.holds, hc.after.nodup, hc.after.owned⟩, hc.kept, hc.stagedOwned, hc.free, hc.room, hc.ownedCount,
      hc.origin⟩, rfl,
      (StagedBody.listOk_iff _).mpr ⟨?_, ?_, hc.after.nodup⟩, fun k => ?_⟩
    · show max body.length (offset + data.length) ≤ 2048
      omega
    · show body1.pages.length = (max body.length (offset + data.length) + 31) / 32
      rw [hall.pages, hpages, hlast]
      omega
    · refine (hbytes k).trans ?_
      rw [hall.bytes k]
      rfl

/-! ### RESIZE (R31, R32) -/

theorem growPages_cases (k : Nat) (h : BodyIn others pool body) :
    (pool.free.length < k ∧ growPages k pool body = none)
      ∨ (k ≤ pool.free.length ∧ ∃ pool' body', growPages k pool body = some (pool', body')
        ∧ Claimed others [] 0 k pool body pool' body' ∧ body'.pages.length = body.pages.length + k
        ∧ ∀ m, pool'.bodyByte body'.pageNos m = pool.bodyByte body.pageNos m) := by
  induction k generalizing pool body with
  | zero => exact .inr ⟨Nat.zero_le _, pool, body, rfl, .refl h, rfl, fun _ => rfl⟩
  | succ k ih =>
    rw [growPages]
    cases hf : pool.free with
    | nil => exact .inl ⟨Nat.succ_pos k, by rw [Pool.alloc_of_nil hf]⟩
    | cons n rest =>
      obtain ⟨pool1, ha⟩ := Pool.alloc_of_cons hf []
      obtain ⟨hc, hbytes⟩ := h.append ha
      have hfree := Pool.alloc_free ha
      rw [hf] at hfree
      obtain ⟨-, hrest⟩ := List.cons_eq_cons.mp hfree
      rw [ha, List.length_cons, hrest]
      rcases ih hc.after with ⟨hlt, hnone⟩ | ⟨hle, pool', body', hsome, hall, hpages, hsame⟩
      · exact .inl ⟨Nat.succ_lt_succ hlt, hnone⟩
      · refine .inr ⟨Nat.succ_le_succ hle, pool', body', hsome, ?_, ?_, fun m => (hsame m).trans (hbytes m)⟩
        · rw [Nat.add_comm k 1]
          exact hc.trans hall
        · rw [hpages, StagedBody.appended, List.length_append, List.length_singleton]
          omega

/-- The bytes of a body after a RESIZE. -/
def resizedByte (old : Nat → Byte) (length : Nat) (k : Nat) : Byte := if k < length then old k else 0#8

theorem growBody_cases {length : Nat} (h : BodyIn others pool body) (hlist : body.listOk)
    (htail : tailClear pool body.length body.pageNos) (hgrow : body.length ≤ length) (hroom : length ≤ 2048) :
    (pool.free.length < (length + 31) / 32 - (body.length + 31) / 32 ∧ growBody length pool body = none)
      ∨ ((length + 31) / 32 - (body.length + 31) / 32 ≤ pool.free.length
        ∧ ∃ pool' body', growBody length pool body = some (pool', body')
          ∧ ClaimedAs others [] 0 ((length + 31) / 32 - (body.length + 31) / 32) pool body pool' body' length
            (resizedByte (pool.bodyByte body.pageNos) length)) := by
  obtain ⟨-, hpages, -⟩ := (StagedBody.listOk_iff body).mp hlist
  unfold growBody
  rcases growPages_cases (pagesFor length - pagesFor body.length) h with
    ⟨hlt, hnone⟩ | ⟨hle, pool', body', hsome, hall, hcount, hbytes⟩
  · exact .inl ⟨hlt, by rw [hnone]⟩
  · refine .inr ⟨hle, pool', { body' with length := length }, by rw [hsome], ?_⟩
    refine ⟨⟨⟨hall.after.holds, hall.after.nodup, hall.after.owned⟩, hall.kept, hall.stagedOwned, hall.free, hall.room,
      hall.ownedCount, hall.origin⟩, rfl, (StagedBody.listOk_iff _).mpr ⟨hroom, ?_, hall.after.nodup⟩, fun k => ?_⟩
    · show body'.pages.length = (length + 31) / 32
      rw [hcount, hpages, pagesFor_eq, pagesFor_eq]
      omega
    · refine (hbytes k).trans ?_
      rw [resizedByte]
      split
      next => rfl
      next hk => exact bodyByte_past_end htail (by omega)

/-- The last page of a body with its bytes from `tail` on cleared: in place, or in a copy when other lists hold it too. -/
theorem clearTail_cases {tail : Nat} (h : BodyIn others pool body) {i : Nat} (hi : body.pages.length = i + 1) (htail : tail ≤ 32) :
    (needsPage others body i = true ∧ pool.free = [] ∧ clearTail tail pool body = none)
      ∨ ((needsPage others body i = true → pool.free ≠ []) ∧ ∃ pool' body', clearTail tail pool body = some (pool', body')
        ∧ Claimed others [] 0 (if needsPage others body i = true then 1 else 0) pool body pool' body'
        ∧ body'.length = body.length ∧ body'.pages.length = i + 1
        ∧ ∀ k, pool'.bodyByte body'.pageNos k
          = if k < 32 * i + tail then pool.bodyByte body.pageNos k else 0#8) := by
  have hlt : i < body.pages.length := by omega
  obtain ⟨x, hx⟩ : ∃ x, body.pages[i]? = some x := ⟨_, List.getElem?_eq_getElem hlt⟩
  have hmem := List.mem_of_getElem? hx
  have hlast : body.pages.getLast? = some x := by
    rw [List.getLast?_eq_getElem?, hi]
    exact hx
  have hpast : ∀ k, 32 * (i + 1) ≤ k → pool.bodyByte body.pageNos k = 0#8 := fun k hk =>
    bodyByte_of_no_page (List.getElem?_eq_none (by omega))
  unfold clearTail
  rw [hlast]
  dsimp only
  by_cases hs : others x.page = 0
  · have hn : ¬ needsPage others body i = true := fun hn => (needsPage_of_some hx).mp hn hs
    have hpage : Config.pageSize = 32 := rfl
    obtain ⟨hfill, hbytes⟩ := h.fill hx hs (off := tail) (bs := List.replicate (32 - tail) 0#8)
      (by rw [List.length_replicate]; omega)
    refine .inr ⟨fun hn' => absurd hn' hn, _, _, by rw [if_neg (by rw [h.ref hmem]; omega)], ?_, rfl, hi, fun k => ?_⟩
    · rw [if_neg hn]
      exact hfill
    · refine (hbytes k).trans ?_
      rw [List.length_replicate]
      by_cases hin : k / 32 = i ∧ tail ≤ k % 32 ∧ k % 32 < tail + (32 - tail)
      · rw [if_pos hin, if_neg (by omega), List.getD_eq_getElem?_getD, List.getElem?_replicate]
        split <;> rfl
      · rw [if_neg hin]
        split
        next => rfl
        next hk =>
          refine hpast k ?_
          have : k % 32 < 32 := Nat.mod_lt k (by decide)
          omega
  · have hn := (needsPage_of_some hx).mpr hs
    rw [if_pos (by rw [h.ref hmem]; omega)]
    cases hf : pool.free with
    | nil => exact .inl ⟨hn, rfl, by rw [Pool.alloc_of_nil hf]⟩
    | cons n rest =>
      obtain ⟨pool1, ha⟩ := Pool.alloc_of_cons hf ((pool.page x.page).take tail)
      have hshort : ((pool.page x.page).take tail).length ≤ 32 := by
        rw [List.length_take, Pool.page_length]
        omega
      obtain ⟨hc, hbytes⟩ := h.replace hx hs hshort ha
      have hset : body.pages.dropLast ++ [⟨n, true⟩] = body.pages.set i ⟨n, true⟩ := by
        have hcut : i = body.pages.dropLast.length := by rw [List.length_dropLast]; omega
        conv_rhs => rw [← List.dropLast_append_getLast? x hlast, hcut]
        rw [List.set_append_right _ _ (Nat.le_refl _), Nat.sub_self]
        rfl
      refine .inr ⟨fun _ => List.cons_ne_nil _ _, pool1.lose x.page, body.replaced i n, by rw [ha]; simp only [hset]; rfl, ?_, rfl,
        ?_, fun k => ?_⟩
      · rw [if_pos hn]
        exact hc
      · rw [StagedBody.replaced, List.length_set, hi]
      · rw [hbytes k]
        have hmod : k % 32 < 32 := Nat.mod_lt k (by decide)
        by_cases hk : k / 32 = i
        · rw [if_pos hk, bodyByte_of_page (hk ▸ hx)]
          by_cases hkt : k < 32 * i + tail
          · rw [if_pos hkt, getD_take (by omega), Pool.page_getD _ _ hmod]
          · rw [if_neg hkt, getD_of_length_le (by rw [List.length_take]; omega)]
        · rw [if_neg hk]
          split
          next => rfl
          next hkt => exact hpast k (by omega)

/-- The pages past a new end leave the list; those that no other list holds join the free list in their order (R32). -/
theorem BodyIn.cut (h : BodyIn others pool body) (keep length : Nat) :
    Claimed others (((body.pages.drop keep).map StagedPage.page).filter (fun n => decide (pool.ref n = 1)))
        ((body.pages.drop keep).countP (fun x => x.owned)) 0 pool body
        (pool.loseAll ((body.pages.drop keep).map StagedPage.page)) ⟨length, body.pages.take keep⟩
      ∧ ∀ k, k < 32 * keep → (pool.loseAll ((body.pages.drop keep).map StagedPage.page)).bodyByte
          (StagedBody.mk length (body.pages.take keep)).pageNos k = pool.bodyByte body.pageNos k := by
  have hsplit : body.pageNos = (body.pages.take keep).map StagedPage.page ++ (body.pages.drop keep).map StagedPage.page := by
    rw [← List.map_append, List.take_append_drop]
    rfl
  have hnodup := h.nodup
  rw [hsplit] at hnodup
  obtain ⟨hkeep, hdrop, -⟩ := List.nodup_append.mp hnodup
  have hbytes := Pool.loseAll_bytes pool ((body.pages.drop keep).map StagedPage.page)
  refine ⟨⟨⟨?_, hkeep, fun x hx => h.owned x (List.mem_of_mem_take hx)⟩, fun m _ j _ => by rw [Pool.pageByte, hbytes, Pool.pageByte],
    Pool.loseAll_stagedOwned .., ?_, Nat.zero_le _, ?_, fun m hm => .inl ?_⟩, fun k hk => ?_⟩
  · refine (h.holds.loseAll _).congr fun m => ?_
    rw [hsplit, List.count_append]
    show others m + ((body.pages.take keep).map StagedPage.page).count m = _
    omega
  · rw [h.holds.loseAll_free hdrop]
    rfl
  · show (body.pages.take keep).countP _ + (body.pages.drop keep).countP _ = body.pages.countP _ + 0
    rw [← List.countP_append, List.take_append_drop]
    rfl
  · rw [hsplit]
    exact List.mem_append_left _ hm
  · have htake : (StagedBody.mk length (body.pages.take keep)).pageNos[k / 32]? = body.pageNos[k / 32]? := by
      rw [pageNos_getElem?, pageNos_getElem?]
      show ((body.pages.take keep)[k / 32]?).map _ = _
      rw [List.getElem?_take_of_lt (by omega)]
    rw [Pool.bodyByte_eq, htake, Pool.bodyByte_eq]
    split
    next => rfl
    next n _ => rw [Pool.pageByte, hbytes, Pool.pageByte]

/-- The pages that a shrinking RESIZE frees at once. -/
def shrinkFrees (pool : Pool) (body : StagedBody) (length : Nat) : List PageNo :=
  ((body.pages.drop ((length + 31) / 32)).map StagedPage.page).filter (fun n => decide (pool.ref n = 1))

/-- The fresh page that a shrinking RESIZE needs for a new last page whose tail it clears and other lists hold too. -/
def shrinkNeeds (others : PageNo → Nat) (body : StagedBody) (length : Nat) : Nat :=
  if length % 32 ≠ 0 ∧ needsPage others body ((length + 31) / 32 - 1) = true then 1 else 0

theorem shrinkBody_cases {length : Nat} (h : BodyIn others pool body) (hlist : body.listOk) (hshrink : length < body.length) :
    (pool.free.length + (shrinkFrees pool body length).length < shrinkNeeds others body length
        ∧ shrinkBody length pool body = none)
      ∨ (shrinkNeeds others body length ≤ pool.free.length + (shrinkFrees pool body length).length
        ∧ ∃ pool' body', shrinkBody length pool body = some (pool', body')
          ∧ ClaimedAs others (shrinkFrees pool body length)
            ((body.pages.drop ((length + 31) / 32)).countP (fun x => x.owned)) (shrinkNeeds others body length)
            pool body pool' body' length (resizedByte (pool.bodyByte body.pageNos) length)) := by
  obtain ⟨hmax, hpages, hnodup⟩ := (StagedBody.listOk_iff body).mp hlist
  obtain ⟨hcut, hbytes⟩ := h.cut ((length + 31) / 32) length
  have hkept : (body.pages.take ((length + 31) / 32)).length = (length + 31) / 32 := by
    rw [List.length_take, hpages]
    omega
  have hfree : (pool.loseAll ((body.pages.drop ((length + 31) / 32)).map StagedPage.page)).free
      = pool.free ++ shrinkFrees pool body length := hcut.free
  unfold shrinkBody
  have hpage : Config.pageSize = 32 := rfl
  simp only [pagesFor_eq, hpage]
  by_cases hmod : length % 32 = 0
  · have hneeds : shrinkNeeds others body length = 0 := if_neg fun hn => hn.1 hmod
    rw [hneeds]
    refine .inr ⟨Nat.zero_le _, _, _, if_pos hmod, hcut, rfl, (StagedBody.listOk_iff _).mpr ⟨?_, hkept, hcut.after.nodup⟩,
      fun k => ?_⟩
    · show length ≤ 2048
      omega
    · rw [resizedByte]
      by_cases hk : k < length
      · rw [if_pos hk, hbytes k (by omega)]
      · rw [if_neg hk]
        refine bodyByte_of_no_page (List.getElem?_eq_none ?_)
        show (body.pages.take ((length + 31) / 32)).length ≤ k / 32
        rw [hkept]
        omega
  · rw [if_neg hmod]
    have hlast : (length + 31) / 32 - 1 + 1 = (length + 31) / 32 := by omega
    have hsame : needsPage others ⟨length, body.pages.take ((length + 31) / 32)⟩ ((length + 31) / 32 - 1)
        = needsPage others body ((length + 31) / 32 - 1) := by
      simp only [needsPage]
      rw [List.getElem?_take_of_lt (by omega)]
    have hneeds : shrinkNeeds others body length
        = if needsPage others body ((length + 31) / 32 - 1) = true then 1 else 0 := by
      rw [shrinkNeeds]
      exact if_congr (and_iff_right hmod) rfl rfl
    rcases clearTail_cases (tail := length % 32) hcut.after (i := (length + 31) / 32 - 1) (hkept.trans hlast.symm)
      (Nat.le_of_lt (Nat.mod_lt length (by decide))) with ⟨hn, hnil, hnone⟩ | ⟨hroom, pool', body', hsome, hc, hlength, hcount, hcleared⟩
    · rw [hsame] at hn
      rw [hfree, List.append_eq_nil_iff] at hnil
      refine .inl ⟨?_, hnone⟩
      rw [hneeds, if_pos hn, hnil.1, hnil.2]
      exact Nat.one_pos
    · rw [hsame] at hc hroom
      rw [hfree] at hroom
      have hall := hcut.trans hc
      rw [Nat.zero_add, ← hneeds] at hall
      refine .inr ⟨?_, pool', body', hsome, hall, hlength, (StagedBody.listOk_iff _).mpr ⟨?_, ?_, hall.after.nodup⟩, fun k => ?_⟩
      · have := hall.room
        rwa [List.length_append] at this
      · rw [hlength]
        show length ≤ 2048
        omega
      · rw [hcount, hlength, hlast]
      · rw [hcleared k, resizedByte]
        have hend : 32 * ((length + 31) / 32 - 1) + length % 32 = length := by omega
        rw [hend]
        split
        next hk => exact hbytes k (by omega)
        next => rfl

end Sys2Proof.Machine
end

section
/-! SUPPORT. How often the lists of the part hold a page, and the body that a WRITE or a RESIZE starts from among them;
the statements about claims. -/

namespace Sys2Proof.Machine

variable {s : State} {p : Port} {tag : Tag}

/-! ### How often a page is held -/

/-- The page list of an intent's staged body. -/
def IntentOp.pageNos (op : IntentOp) : List PageNo :=
  match op.body? with
  | none => []
  | some b => b.pageNos

/-- How often the staged bodies of an intent list hold a page. -/
def stagedCount (intents : List Intent) (m : PageNo) : Nat := (intents.flatMap (fun i => i.op.pageNos)).count m

/-- How often the versions of a directory hold a page. -/
def versionCount (dir : List DirSlot) (m : PageNo) : Nat := (dir.flatMap (fun d => d.chain.flatMap Version.pages)).count m

/-- A number for each port, added up. -/
def portSum (f : Port → Nat) : Nat := f .p0 + f .p1 + f .p2 + f .p3

/-- How often versions and staged bodies hold a page (R24). -/
def heldCount (s : State) (m : PageNo) : Nat :=
  versionCount s.directory m + portSum (fun q => stagedCount (s.txns.get q).intents m)

theorem IntentOp.pageNos_of_some {op : IntentOp} {b : StagedBody} (h : op.body? = some b) : op.pageNos = b.pageNos := by
  simp only [IntentOp.pageNos, h]

theorem IntentOp.pageNos_of_none {op : IntentOp} (h : op.body? = none) : op.pageNos = [] := by
  simp only [IntentOp.pageNos, h]

theorem stagedPageLists_flatMap (s : State) (p : Port) :
    (stagedPageLists p s).flatMap Prod.snd = (s.txns.get p).intents.flatMap (fun i => i.op.pageNos) := by
  rw [stagedPageLists]
  induction (s.txns.get p).intents with
  | nil => rfl
  | cons i rest ih =>
    rw [List.filterMap_cons, List.flatMap_cons, ← ih]
    cases hb : i.op.body? with
    | none => rw [IntentOp.pageNos_of_none hb]; rfl
    | some b => rw [IntentOp.pageNos_of_some hb]; rfl

theorem heldCount_eq (s : State) (m : PageNo) : heldCount s m = ((pageLists s).flatMap Prod.snd).count m := by
  have hversions : (versionPageLists s).flatMap Prod.snd = s.directory.flatMap (fun d => d.chain.flatMap Version.pages) := by
    rw [versionPageLists, List.flatMap_assoc]
    simp only [List.flatMap_map]
  rw [pageLists, List.flatMap_append, List.count_append, hversions]
  simp only [Port.all, List.flatMap_cons, List.flatMap_nil, List.append_nil, List.flatMap_append, List.count_append,
    stagedPageLists_flatMap, heldCount, versionCount, portSum, stagedCount, Nat.add_assoc]

theorem PagesOk.holds (h : PagesOk s) (hm : MemoriesOk s) : s.pool.Holds (heldCount s) where
  wf := hm.pool_wf
  refs m := (h.counts m).trans (heldCount_eq s m).symm
  freePages n := by rw [heldCount_eq, ← h.counts]; exact h.freePages n
  freeOnce := h.freeOnce
  inPool n hn := by rw [heldCount_eq, ← h.counts]; exact h.inPool n hn

theorem le_portSum (f : Port → Nat) (q : Port) : f q ≤ portSum f := by
  cases q <;> simp only [portSum] <;> omega

theorem pair_le_portSum (f : Port → Nat) {q r : Port} (h : q ≠ r) : f q + f r ≤ portSum f := by
  cases q <;> cases r <;> simp [portSum] at h ⊢ <;> omega

theorem stagedCount_cons (i : Intent) (rest : List Intent) (m : PageNo) :
    stagedCount (i :: rest) m = i.op.pageNos.count m + stagedCount rest m := by
  rw [stagedCount, List.flatMap_cons, List.count_append]
  rfl

theorem count_le_stagedCount {intents : List Intent} {i : Intent} (hi : i ∈ intents) (m : PageNo) :
    i.op.pageNos.count m ≤ stagedCount intents m := by
  induction intents with
  | nil => cases hi
  | cons x rest ih =>
    rw [stagedCount_cons]
    rcases List.mem_cons.mp hi with rfl | hi
    · exact Nat.le_add_right _ _
    · exact (ih hi).trans (Nat.le_add_left _ _)

theorem pair_count_le_stagedCount {intents : List Intent} {i j : Intent} (hi : i ∈ intents) (hj : j ∈ intents) (hne : i ≠ j)
    (m : PageNo) : i.op.pageNos.count m + j.op.pageNos.count m ≤ stagedCount intents m := by
  induction intents with
  | nil => cases hi
  | cons x rest ih =>
    rw [stagedCount_cons]
    rcases List.mem_cons.mp hi with rfl | hi' <;> rcases List.mem_cons.mp hj with rfl | hj'
    · exact absurd rfl hne
    · exact Nat.add_le_add_left (count_le_stagedCount hj' m) _
    · have := count_le_stagedCount hi' m
      omega
    · exact (ih hi' hj').trans (Nat.le_add_left _ _)

theorem versionCount_pos {dir : List DirSlot} {d : DirSlot} (hd : d ∈ dir) {v : Version} (hv : v ∈ d.chain) {m : PageNo}
    (hm : m ∈ v.pages) : 0 < versionCount dir m :=
  List.count_pos_iff.mpr (List.mem_flatMap.mpr ⟨d, hd, List.mem_flatMap.mpr ⟨v, hv, hm⟩⟩)

/-! ### The start of a claim (R27) -/

/-- How often lists other than the body that a WRITE or a RESIZE starts from hold a page. -/
def otherCount (s : State) (start : Start) (m : PageNo) : Nat :=
  match start with
  | .entry _ old => heldCount s m - old.pageNos.count m
  | .firstTouch _ _ _ => heldCount s m

/-- A body in order among the others: it is empty and no intent's, or an intent's of that port and tag, or a copy. -/
structure StartIn (s : State) (p : Port) (tag : Tag) (start : Start) : Prop where
  body : BodyIn (otherCount s start) (start.pool s.pool) start.body
  listOk : start.body.listOk
  tail : tailClear (start.pool s.pool) start.body.length start.body.pageNos
  bytes : (start.pool s.pool).bytes = s.pool.bytes
  free : (start.pool s.pool).free = s.pool.free
  stagedOwned : (start.pool s.pool).stagedOwned = s.pool.stagedOwned
  owned : start.body.ownedCount ≤ s.pool.stagedOwned.get p
  bodies : ∀ q, ∀ i ∈ (s.txns.get q).intents, ¬ (q = p ∧ i.tag = tag) → ∀ m ∈ i.op.pageNos, otherCount s start m ≠ 0
  versions : ∀ d ∈ s.directory, ∀ v ∈ d.chain, ∀ m ∈ v.pages, otherCount s start m ≠ 0

theorem body?_of_entry {op : IntentOp} {old : StagedBody} (found : findStart p tag s = .ok (.entry op old)) :
    ∃ i ∈ (s.txns.get p).intents, i.tag = tag ∧ i.op = op ∧ (op.body? = some old ∨ op.body? = none ∧ old = StagedBody.empty) := by
  obtain ⟨i, hi, rfl, h⟩ := findStart_entry found
  obtain ⟨hmem, htag⟩ := findIntent_mem hi
  refine ⟨i, hmem, htag, rfl, ?_⟩
  rcases h with ⟨attrs, staged, hop, rfl⟩ | ⟨base, hop⟩
  · cases staged with
    | none => exact .inr ⟨by rw [hop]; rfl, rfl⟩
    | some b => exact .inl (by rw [hop]; rfl)
  · exact .inl (by rw [hop]; rfl)

theorem startIn_of_body (h : PagesOk s) (hm : MemoriesOk s) {i : Intent} (hi : i ∈ (s.txns.get p).intents) {old : StagedBody}
    (hb : i.op.body? = some old) : StartIn s p i.tag (.entry i.op old) := by
  have hmem : old ∈ stagedBodies p s := mem_stagedBodies.mpr ⟨i, hi, hb⟩
  have hlist := h.bodyLists p old hmem
  have hpages : i.op.pageNos = old.pageNos := IntentOp.pageNos_of_some hb
  have hstaged : ∀ m, old.pageNos.count m ≤ stagedCount (s.txns.get p).intents m := fun m => hpages ▸ count_le_stagedCount hi m
  have hle : ∀ m, old.pageNos.count m ≤ heldCount s m := fun m =>
    ((hstaged m).trans (le_portSum (fun q => stagedCount (s.txns.get q).intents m) p)).trans (Nat.le_add_left _ _)
  have hholds := h.holds hm
  have hother : ∀ m, otherCount s (.entry i.op old) m = heldCount s m - old.pageNos.count m := fun _ => rfl
  refine ⟨⟨hholds.congr fun m => ?_, hlist.2.2, fun x hx hown => ?_⟩, hlist, h.bodyTails p old hmem, rfl, rfl, rfl, ?_,
    fun q j hj hne m hjm => ?_, fun d hd v hv m hvm => ?_⟩
  · show heldCount s m - old.pageNos.count m + old.pageNos.count m = heldCount s m
    exact Nat.sub_add_cancel (hle m)
  · have hone := h.ownedOnce p old hmem x hx hown
    rw [hholds.refs] at hone
    have hcount : old.pageNos.count x.page = 1 := List.count_eq_one_of_mem hlist.2.2 (List.mem_map_of_mem hx)
    rw [hother, hone, hcount]
  · rw [h.stagedOwned p]
    exact List.le_sum_of_mem (List.mem_map_of_mem hmem)
  · have hpos : 0 < j.op.pageNos.count m := List.count_pos_iff.mpr hjm
    rw [hother]
    by_cases hq : q = p
    · subst hq
      have hpair := pair_count_le_stagedCount hi hj (fun e => hne ⟨rfl, e ▸ rfl⟩) m
      have := le_portSum (fun q => stagedCount (s.txns.get q).intents m) q
      rw [hpages] at hpair
      simp only [heldCount]
      omega
    · have hpair := pair_le_portSum (fun q => stagedCount (s.txns.get q).intents m) hq
      have hj := count_le_stagedCount hj m
      have hi := hstaged m
      simp only [heldCount]
      omega
  · have hpos := versionCount_pos hd hv hvm
    have hi := (hstaged m).trans (le_portSum (fun q => stagedCount (s.txns.get q).intents m) p)
    rw [hother, heldCount]
    omega

theorem startIn_of_empty (h : PagesOk s) (hm : MemoriesOk s) (op : IntentOp) : StartIn s p tag (.entry op StagedBody.empty) := by
  have hother : ∀ m, otherCount s (.entry op StagedBody.empty) m = heldCount s m := fun _ => rfl
  refine ⟨⟨h.holds hm, List.nodup_nil, fun x hx => absurd hx List.not_mem_nil⟩, ⟨Nat.zero_le _, (by decide : 0 = pagesFor 0), List.nodup_nil⟩,
    fun k _ hk => absurd hk (Nat.not_lt_zero k), rfl, rfl, rfl, Nat.zero_le _, fun q j hj _ m hjm => ?_, fun d hd v hv m hvm => ?_⟩
  · have hpos : 0 < j.op.pageNos.count m := List.count_pos_iff.mpr hjm
    have hj := count_le_stagedCount hj m
    have := le_portSum (fun q => stagedCount (s.txns.get q).intents m) q
    rw [hother, heldCount]
    omega
  · have hpos := versionCount_pos hd hv hvm
    rw [hother, heldCount]
    omega

theorem startIn_of_firstTouch (h : PagesOk s) (hm : MemoriesOk s) {base : Gen} {length : Nat} {pages : List PageNo} {attrs : Attrs}
    {crc : Crc} (hl : lookup s.directory tag = .liveHead ⟨base, .blob attrs length pages crc⟩) :
    StartIn s p tag (.firstTouch base length pages) := by
  have hv := head?_of_lookup (.inr hl)
  have hne : chainOf s.directory tag ≠ [] := fun hn => by
    rw [hn] at hv
    cases hv
  obtain ⟨d, hd, -, hc⟩ := exists_slot_of_chainOf_ne_nil hne
  have hmem := List.mem_of_mem_head? (hc ▸ hv)
  have hlist := h.versionLists d hd _ hmem
  have hpages : (StagedBody.ofBase length pages).pageNos = pages := by
    simp only [StagedBody.ofBase, StagedBody.pageNos, List.map_map]
    exact List.map_id' pages
  have hother : ∀ m, otherCount s (.firstTouch base length pages) m = heldCount s m := fun _ => rfl
  have hversions : ∀ d ∈ s.directory, ∀ v ∈ d.chain, ∀ m ∈ v.pages, heldCount s m ≠ 0 := fun d hd v hv m hvm => by
    have hpos := versionCount_pos hd hv hvm
    rw [heldCount]
    omega
  refine ⟨⟨((h.holds hm).gainAll fun n hn => hversions d hd _ hmem n hn).congr fun m => ?_, ?_, fun x hx hown => ?_⟩, ?_, ?_,
    Pool.gainAll_bytes .., Pool.gainAll_free .., Pool.gainAll_stagedOwned .., ?_, fun q j hj _ m hjm => ?_, hversions⟩
  · show otherCount s (.firstTouch base length pages) m + (StagedBody.ofBase length pages).pageNos.count m
      = heldCount s m + pages.count m
    rw [hpages, hother]
  · show (StagedBody.ofBase length pages).pageNos.Nodup
    rw [hpages]
    exact hlist.2.2
  · obtain ⟨n, -, rfl⟩ := List.mem_map.mp hx
    cases hown
  · refine ⟨hlist.1, ?_, ?_⟩
    · exact (List.length_map _).trans hlist.2.1
    · show (StagedBody.ofBase length pages).pageNos.Nodup
      rw [hpages]
      exact hlist.2.2
  · intro k hk hlt
    show ((s.pool.gainAll pages).bodyByte (StagedBody.ofBase length pages).pageNos k) = _
    have hlt : k < Config.pageSize * (StagedBody.ofBase length pages).pageNos.length := hlt
    rw [hpages] at hlt ⊢
    have hsame : (s.pool.gainAll pages).bodyByte pages k = s.pool.bodyByte pages k :=
      Pool.bodyByte_congr (fun n _ j _ => by rw [Pool.pageByte, Pool.gainAll_bytes, Pool.pageByte]) k
    rw [hsame]
    exact h.versionTails d hd _ hmem (by rintro he; exact absurd hlt (by rw [show pages = [] from he]; exact Nat.not_lt_zero k)) k hk hlt
  · have hz : (StagedBody.ofBase length pages).ownedCount = 0 := by
      rw [StagedBody.ownedCount, StagedBody.ofBase, List.countP_map, List.countP_eq_zero]
      exact fun _ _ ho => by cases ho
    exact hz.trans_le (Nat.zero_le _)
  · have hpos : 0 < j.op.pageNos.count m := List.count_pos_iff.mpr hjm
    have hj := count_le_stagedCount hj m
    have := le_portSum (fun q => stagedCount (s.txns.get q).intents m) q
    rw [hother, heldCount]
    omega

/-- What a WRITE or a RESIZE starts from is a body in order among the others. -/
theorem startIn_of_found (h : PagesOk s) (hm : MemoriesOk s) {start : Start} (found : findStart p tag s = .ok start) :
    StartIn s p tag start := by
  cases start with
  | entry op old =>
    obtain ⟨i, hi, rfl, rfl, hb | ⟨-, rfl⟩⟩ := body?_of_entry found
    · exact startIn_of_body h hm hi hb
    · exact startIn_of_empty h hm _
  | firstTouch base length pages =>
    obtain ⟨-, -, attrs, crc, hl⟩ := findStart_firstTouch found
    exact startIn_of_firstTouch h hm hl

/-! ### Claims change their own body alone (R23, R29) -/

section
variable {start : Start} {pool' : Pool} {body' : StagedBody} {freed : List PageNo} {released taken : Nat}

/-- Pages that other lists hold read as before the claim. -/
theorem StartIn.kept (h : StartIn s p tag start)
    (hc : Claimed (otherCount s start) freed released taken (start.pool s.pool) start.body pool' body') {m : PageNo}
    (hm : otherCount s start m ≠ 0) {j : Nat} (hj : j < 32) : pool'.pageByte m j = s.pool.pageByte m j := by
  rw [hc.kept m hm j hj, Pool.pageByte, h.bytes, Pool.pageByte]

theorem StartIn.body_kept (h : StartIn s p tag start)
    (hc : Claimed (otherCount s start) freed released taken (start.pool s.pool) start.body pool' body') {q : Port} {i : Intent}
    (hi : i ∈ (s.txns.get q).intents) (hne : ¬ (q = p ∧ i.tag = tag)) {b : StagedBody} (hb : i.op.body? = some b) (length : Nat) :
    pool'.body b.pageNos length = s.pool.body b.pageNos length :=
  Pool.body_congr (fun m hm _ hj => h.kept hc (h.bodies q i hi hne m (IntentOp.pageNos_of_some hb ▸ hm)) hj) length

/-- A version reads the same in a pool that holds its pages' bytes. -/
theorem Version.bodyByte_congr {pool pool' : Pool} {v : Version}
    (h : ∀ m ∈ v.pages, ∀ j, j < 32 → pool'.pageByte m j = pool.pageByte m j) (k : Nat) :
    v.bodyByte pool' k = v.bodyByte pool k := by
  unfold Version.bodyByte
  unfold Version.pages at h
  split
  next hc =>
    rw [hc] at h
    exact Pool.bodyByte_congr h k
  all_goals rfl

theorem Version.body_congr {pool pool' : Pool} {v : Version}
    (h : ∀ m ∈ v.pages, ∀ j, j < 32 → pool'.pageByte m j = pool.pageByte m j) : v.body pool' = v.body pool :=
  List.map_congr_left fun k _ => Version.bodyByte_congr h k

theorem StartIn.version_kept (h : StartIn s p tag start)
    (hc : Claimed (otherCount s start) freed released taken (start.pool s.pool) start.body pool' body') {d : DirSlot}
    (hd : d ∈ s.directory) {v : Version} (hv : v ∈ d.chain) : v.body pool' = v.body s.pool :=
  Version.body_congr fun m hm _ hj => h.kept hc (h.versions d hd v hv m hm) hj

theorem StartIn.start_byte (h : StartIn s p tag start) (k : Nat) :
    (start.pool s.pool).bodyByte start.body.pageNos k = s.pool.bodyByte start.body.pageNos k :=
  Pool.bodyByte_congr (fun n _ j _ => by rw [Pool.pageByte, h.bytes, Pool.pageByte]) k

end

/-- What a granted RESIZE makes of a body. -/
theorem resizeBody_granted {others : PageNo → Nat} {pool pool' : Pool} {body body' : StagedBody} {length : Nat}
    (h : BodyIn others pool body) (hlist : body.listOk) (htail : tailClear pool body.length body.pageNos) (hroom : length ≤ 2048)
    (hr : resizeBody length pool body = some (pool', body')) : ∃ freed released taken,
      ClaimedAs others freed released taken pool body pool' body' length (resizedByte (pool.bodyByte body.pageNos) length) := by
  unfold resizeBody at hr
  split at hr
  next hlt =>
    rcases shrinkBody_cases h hlist hlt with ⟨-, hnone⟩ | ⟨-, pool1, body1, hsome, hc⟩
    · rw [hnone] at hr
      cases hr
    · rw [hsome] at hr
      cases hr
      exact ⟨_, _, _, hc⟩
  next hge =>
    rcases growBody_cases h hlist htail (Nat.not_lt.mp hge) hroom with ⟨-, hnone⟩ | ⟨-, pool1, body1, hsome, hc⟩
    · rw [hnone] at hr
      cases hr
    · rw [hsome] at hr
      cases hr
      exact ⟨_, _, _, hc⟩

/-- What a granted WRITE makes of a body. -/
theorem writeBody_granted {others : PageNo → Nat} {pool pool' : Pool} {body body' : StagedBody} {offset : Nat} {data : List Byte}
    (h : BodyIn others pool body) (hlist : body.listOk) (hne : data ≠ []) (hoffset : offset ≤ body.length)
    (hroom : offset + data.length ≤ 2048) (hw : writeBody offset data pool body = some (pool', body')) : ∃ taken,
      ClaimedAs others [] 0 taken pool body pool' body' (max body.length (offset + data.length))
        (writtenByte (pool.bodyByte body.pageNos) offset data) := by
  rcases writeBody_cases h hlist hne hoffset hroom with ⟨-, hnone⟩ | ⟨-, pool1, body1, hsome, hc⟩
  · rw [hnone] at hw
    cases hw
  · rw [hsome] at hw
    cases hw
    exact ⟨_, hc⟩

theorem writtenByte_past {old : Nat → Byte} {offset length : Nat} {data : List Byte} (h : ∀ k, length ≤ k → old k = 0#8) {k : Nat}
    (hk : max length (offset + data.length) ≤ k) : writtenByte old offset data k = 0#8 := by
  rw [writtenByte, if_neg (by omega)]
  exact h k (by omega)

theorem resizedByte_past {old : Nat → Byte} {length k : Nat} (hk : length ≤ k) : resizedByte old length k = 0#8 :=
  if_neg (Nat.not_lt.mpr hk)

/-- Settles O37: a claim writes into pages that its body alone holds, and leaves every other list's page as it was. -/
theorem claimsChangeOnlyTheirBody : Obligations.ClaimsChangeOnlyTheirBody := by
  intro p tag s start pool' body' h hm found
  have hin := startIn_of_found h hm found
  have hold : ∀ k, start.body.length ≤ k → (start.pool s.pool).bodyByte start.body.pageNos k = 0#8 := fun k hk =>
    bodyByte_past_end hin.tail hk
  refine ⟨fun op old hs => ?_, fun base n pages hs => ?_, fun offset data hne hoffset hroom hw => ?_, fun length hroom hr => ?_⟩
  · subst hs
    exact ⟨rfl, rfl⟩
  · subst hs
    exact ⟨rfl, hin.bytes, hin.free, hin.stagedOwned, fun m => Pool.gainAll_ref hm.counts pages m⟩
  · obtain ⟨taken, hc⟩ := writeBody_granted hin.body hin.listOk hne hoffset hroom hw
    refine ⟨hc.length, hc.listOk, fun k _ => ?_, hc.tailClear fun k hk => writtenByte_past hold hk,
      fun q i b hi hb hne => hin.body_kept hc.toClaimed hi hne hb b.length, fun d hd v hv => hin.version_kept hc.toClaimed hd hv⟩
    rw [hc.bytes k, writtenByte, hin.start_byte]
  · obtain ⟨freed, released, taken, hc⟩ := resizeBody_granted hin.body hin.listOk hin.tail hroom hr
    refine ⟨hc.length, hc.listOk, fun k hk => ?_, hc.tailClear fun k hk => resizedByte_past hk,
      fun q i b hi hb hne => hin.body_kept hc.toClaimed hi hne hb b.length, fun d hd v hv => hin.version_kept hc.toClaimed hd hv⟩
    rw [hc.bytes k, resizedByte, if_pos hk, ← hin.start_byte]
    split
    next => rfl
    next hpast => exact hold k (Nat.not_lt.mp hpast)

end Sys2Proof.Machine
end

section
/-! SUPPORT. When a claim of WRITE or RESIZE is refused, and the pages that a granted one takes; the statement. -/

namespace Sys2Proof.Machine

variable {s : State} {p : Port} {tag : Tag} {start : Start}

/-- The claims that are refused, and the free list and the staged-owned counts that a granted one leaves (R28, R29). -/
def judgedClaim (s : State) (p : Port) (claim : Except StagingDetail (Pool × StagedBody)) (freed released allocates : Nat)
    (freedPages : List PageNo) : Prop :=
  (claim = .error .pages ↔ s.pool.free.length + freed < allocates)
  ∧ (claim = .error .quota ↔ allocates ≤ s.pool.free.length + freed
      ∧ 256 + released < s.pool.stagedOwned.get p + allocates)
  ∧ ∀ pool' body', claim = .ok (pool', body') →
    pool'.free = (s.pool.free ++ freedPages).drop allocates
    ∧ pool'.stagedOwned.get p + released = s.pool.stagedOwned.get p + allocates
    ∧ ∀ q, q ≠ p → pool'.stagedOwned.get q = s.pool.stagedOwned.get q

/-- A claim is judged by what its change takes from the free list, frees and releases. -/
theorem StartIn.judged (h : StartIn s p tag start) {freed : List PageNo} {released taken : Nat}
    {change : Option (Pool × StagedBody)}
    (hcases : ((start.pool s.pool).free.length + freed.length < taken ∧ change = none)
      ∨ (taken ≤ (start.pool s.pool).free.length + freed.length ∧ ∃ pool' body', change = some (pool', body')
        ∧ Claimed (otherCount s start) freed released taken (start.pool s.pool) start.body pool' body')) :
    judgedClaim s p (stagedClaim p s.pool start.body change) freed.length released taken freed := by
  rw [h.free] at hcases
  have howned := h.owned
  have hquota : Config.stagingQuota = 256 := rfl
  rcases hcases with ⟨hshort, rfl⟩ | ⟨hroom, pool', body', rfl, hc⟩
  · have hclaim : stagedClaim p s.pool start.body none = .error .pages := rfl
    rw [hclaim]
    exact ⟨iff_of_true rfl hshort, iff_of_false nofun fun hq => absurd hshort (Nat.not_lt.mpr hq.1), nofun⟩
  · have hcount := hc.ownedCount
    have hnot : ¬ s.pool.free.length + freed.length < taken := Nat.not_lt.mpr hroom
    simp only [stagedClaim, hquota]
    split
    next hover =>
      exact ⟨iff_of_false nofun hnot, iff_of_true rfl ⟨hroom, by omega⟩, nofun⟩
    next hunder =>
      refine ⟨iff_of_false nofun hnot, iff_of_false nofun fun hq => hunder (by omega), fun pool'' body'' he => ?_⟩
      cases he
      refine ⟨?_, ?_, fun q hq => ?_⟩
      · show pool'.free = _
        rw [hc.free, h.free]
      · show (pool'.stagedOwned.set p _).get p + released = _
        rw [PortMap.get_set_self]
        omega
      · show (pool'.stagedOwned.set p _).get q = _
        rw [PortMap.get_set_of_ne _ _ hq, hc.stagedOwned, h.stagedOwned]

/-- A page of the starting body that other lists hold too has a count above 1. -/
theorem BodyIn.needsPage_of_page {others : PageNo → Nat} {pool : Pool} {body : StagedBody} (h : BodyIn others pool body) {k : Nat}
    {x : StagedPage} (hx : body.pages[k]? = some x) : needsPage others body k = decide (1 < pool.ref x.page) := by
  rw [Bool.eq_iff_iff, needsPage_of_some hx, h.ref (List.mem_of_getElem? hx), decide_eq_true_eq]
  omega

/-- The pages from `a` on below `n`, in order. -/
theorem filter_range_eq_range' (a n : Nat) : (List.range n).filter (fun k => decide (a ≤ k)) = List.range' a (n - a) := by
  induction n with
  | zero => simp
  | succ n ih =>
    rw [List.range_succ, List.filter_append, ih]
    by_cases h : a ≤ n
    · have hn : n + 1 - a = (n - a) + 1 := by omega
      have hend : a + (n - a) = n := by omega
      rw [hn, List.range'_concat, Nat.one_mul, hend]
      simp [h]
    · have hz : n - a = 0 := by omega
      have hz' : n + 1 - a = 0 := by omega
      rw [hz, hz']
      simp [h]

/-- Settles O38, by what each change takes, frees and releases. -/
theorem writeClaimsAreRefusedForPagesThenQuota : Obligations.WriteClaimsAreRefusedForPagesThenQuota := by
  intro p tag s start h hm found
  have hin := startIn_of_found h hm found
  have hpages : start.body.pages.length = (start.body.length + 31) / 32 := hin.listOk.2.1
  refine ⟨fun offset data hne hlen hoffset hroom => ?_, fun length hroom => ⟨fun hgrow => ?_, fun hshrink => ?_⟩⟩
  · have hcount : ((List.range ((offset + data.length - 1) / 32 + 1)).filter (fun k => decide (offset / 32 ≤ k))).countP
        (fun k => decide (start.body.pages.length ≤ k) || (match start.body.pages[k]? with
          | none => false
          | some x => decide (1 < (start.pool s.pool).ref x.page)))
        = writeNeeds (otherCount s start) start.body offset data.length := by
      rw [filter_range_eq_range', writeNeeds, pagesNeeded]
      refine List.countP_congr fun k _ => ?_
      cases hx : start.body.pages[k]? with
      | none => simp [List.getElem?_eq_none_iff.mp hx, needsPage_of_none hx]
      | some x =>
        obtain ⟨hlt, -⟩ := List.getElem?_eq_some_iff.mp hx
        simp [Nat.not_le.mpr hlt, hin.body.needsPage_of_page hx]
    have hjudged := hin.judged (freed := []) (released := 0)
      ((writeBody_cases hin.body hin.listOk hne hoffset hroom).imp_right fun ⟨hle, pool', body', hs, hc⟩ =>
        ⟨hle, pool', body', hs, hc.toClaimed⟩)
    rw [← hcount] at hjudged
    exact hjudged
  · have hresize : resizeBody length (start.pool s.pool) start.body = growBody length (start.pool s.pool) start.body :=
      if_neg (Nat.not_lt.mpr hgrow)
    dsimp only
    rw [hresize]
    exact hin.judged (freed := []) (released := 0)
      ((growBody_cases hin.body hin.listOk hin.tail hgrow hroom).imp_right fun ⟨hle, pool', body', hs, hc⟩ =>
        ⟨hle, pool', body', hs, hc.toClaimed⟩)
  · have hresize : resizeBody length (start.pool s.pool) start.body = shrinkBody length (start.pool s.pool) start.body :=
      if_pos hshrink
    have hneeds : shrinkNeeds (otherCount s start) start.body length
        = if length % 32 ≠ 0 ∧ (match start.body.pages[(length + 31) / 32 - 1]? with
            | none => false
            | some x => decide (1 < (start.pool s.pool).ref x.page)) = true then 1 else 0 := by
      refine if_congr (and_congr_right fun hmod => ?_) rfl rfl
      have hlt : (length + 31) / 32 - 1 < start.body.pages.length := by
        rw [hpages]
        omega
      have hx := List.getElem?_eq_getElem hlt
      rw [hin.body.needsPage_of_page hx]
      simp only [hx]
    dsimp only
    rw [hresize]
    have hjudged := hin.judged
      ((shrinkBody_cases hin.body hin.listOk hshrink).imp_right fun ⟨hle, pool', body', hs, hc⟩ =>
        ⟨hle, pool', body', hs, hc.toClaimed⟩)
    rw [hneeds] at hjudged
    exact hjudged

end Sys2Proof.Machine
end

section
/-! SUPPORT. Page conservation under the steps that only give pages back: retirement and the end of staged bodies. -/

namespace Sys2Proof.Machine

variable {s t : State} {p : Port}

/-! ### The invariant by the ledger -/

/-- The staged-owned pages of an intent's body. -/
def IntentOp.ownedCount (op : IntentOp) : Nat :=
  match op.body? with
  | none => 0
  | some b => b.ownedCount

/-- The staged-owned pages of an intent list (R28). -/
def ownedSum (intents : List Intent) : Nat := (intents.map (fun i => i.op.ownedCount)).sum

theorem IntentOp.ownedCount_of_some {op : IntentOp} {b : StagedBody} (h : op.body? = some b) : op.ownedCount = b.ownedCount := by
  simp only [IntentOp.ownedCount, h]

theorem IntentOp.ownedCount_of_none {op : IntentOp} (h : op.body? = none) : op.ownedCount = 0 := by
  simp only [IntentOp.ownedCount, h]

theorem ownedSum_cons (i : Intent) (rest : List Intent) : ownedSum (i :: rest) = i.op.ownedCount + ownedSum rest := rfl

theorem ownedSum_eq (s : State) (q : Port) : ((stagedBodies q s).map StagedBody.ownedCount).sum = ownedSum (s.txns.get q).intents := by
  rw [stagedBodies]
  induction (s.txns.get q).intents with
  | nil => rfl
  | cons i rest ih =>
    rw [List.filterMap_cons, ownedSum_cons, ← ih]
    cases hb : i.op.body? with
    | none => rw [IntentOp.ownedCount_of_none hb, Nat.zero_add]
    | some b => rw [IntentOp.ownedCount_of_some hb]; rfl

theorem PagesOk.stagedOwned_eq (h : PagesOk s) (q : Port) : s.pool.stagedOwned.get q = ownedSum (s.txns.get q).intents :=
  (h.stagedOwned q).trans (ownedSum_eq s q)

/-- A page of a staged body is held. -/
theorem heldCount_body {q : Port} {i : Intent} (hi : i ∈ (s.txns.get q).intents) {b : StagedBody} (hb : i.op.body? = some b)
    {m : PageNo} (hm : m ∈ b.pageNos) : 0 < heldCount s m := by
  have hpos : 0 < i.op.pageNos.count m := List.count_pos_iff.mpr (IntentOp.pageNos_of_some hb ▸ hm)
  have h1 := count_le_stagedCount hi m
  have h2 := le_portSum (fun q => stagedCount (s.txns.get q).intents m) q
  simp only [heldCount]
  omega

/-- What a commit has digested reads its bodies' bytes alone. -/
theorem digestAt_congr {pool pool' : Pool} {bodies : List (Tag × StagedBody)} {c c' : Commit} (h : digestAt pool bodies c)
    (hdone : c'.done = c.done) (htodo : c'.todo = c.todo)
    (hbytes : ∀ x ∈ bodies, pool'.body x.2.pageNos x.2.length = pool.body x.2.pageNos x.2.length) : digestAt pool' bodies c' := by
  obtain ⟨before, behind, rfl, hd, ht⟩ := h
  have hafter : ∀ x ∈ behind, ∀ k, digestAfter pool' k x = digestAfter pool k x := fun x hx k => by
    rw [digestAfter, digestAfter, hbytes x (List.mem_append_right _ hx)]
  refine ⟨before, behind, rfl, ?_, ?_⟩
  · rw [hdone, hd]
    exact List.map_congr_left fun x hx => by rw [hbytes x (List.mem_append_left _ hx)]
  · cases behind with
    | nil => exact htodo.trans ht
    | cons x rest =>
      obtain ⟨k, hk, ht⟩ := ht
      refine ⟨k, hk, ?_⟩
      rw [htodo, ht, hafter x List.mem_cons_self]
      exact congrArg _ (List.map_congr_left fun y hy => (hafter y (List.mem_cons_of_mem _ hy) 0).symm)

theorem mem_bodiesToDigest {intents : List Intent} {x : Tag × StagedBody} (h : x ∈ bodiesToDigest intents) :
    ∃ i ∈ intents, i.tag = x.1 ∧ i.op.body? = some x.2 := by
  obtain ⟨i, hi, hx⟩ := List.mem_filterMap.mp h
  refine ⟨i, hi, ?_⟩
  split at hx
  · cases hx
  next b hb =>
    split at hx
    · cases hx
    · cases hx
      exact ⟨rfl, hb⟩

/-- The same lists and pages. -/
theorem PagesOk.of_eq (h : PagesOk s) (pool : t.pool = s.pool) (dir : t.directory = s.directory)
    (intents : ∀ q, (t.txns.get q).intents = (s.txns.get q).intents)
    (digested : ∀ c, t.engine = .digesting c → digestAt s.pool (bodiesToDigest (s.txns.get c.port).intents) c) : PagesOk t := by
  have hlists : pageLists t = pageLists s := by
    simp only [pageLists, versionPageLists, stagedPageLists, dir, intents]
  have hbodies : ∀ q, stagedBodies q t = stagedBodies q s := fun q => by
    simp only [stagedBodies, intents]
  constructor
  case counts => rw [pool, hlists]; exact h.counts
  case freePages => rw [pool]; exact h.freePages
  case freeOnce => rw [pool]; exact h.freeOnce
  case inPool => rw [pool]; exact h.inPool
  case versionLists => rw [dir]; exact h.versionLists
  case bodyLists => intro q; rw [hbodies]; exact h.bodyLists q
  case ownedOnce => intro q; rw [hbodies, pool]; exact h.ownedOnce q
  case stagedOwned => intro q; rw [hbodies, pool]; exact h.stagedOwned q
  case versionTails => rw [dir, pool]; exact h.versionTails
  case bodyTails => intro q; rw [hbodies, pool]; exact h.bodyTails q
  case oneRecord => rw [hlists]; exact h.oneRecord
  case quota => rw [pool]; exact h.quota
  case crcs => rw [dir, pool]; exact h.crcs
  case digested => intro c hc; rw [pool, intents]; exact digested c hc

theorem PagesOk.of_store (h : PagesOk s) (pool : t.pool = s.pool) (dir : t.directory = s.directory) (txns : t.txns = s.txns)
    (engine : t.engine = s.engine) : PagesOk t :=
  h.of_eq pool dir (fun q => by rw [txns]) fun c hc => h.digested c (engine ▸ hc)

/-- Lists go, and with them pages lose holders: no byte changes. -/
theorem PagesOk.shrink (h : PagesOk s) (holds : t.pool.Holds (heldCount t))
    (bytes : t.pool.bytes = s.pool.bytes) (fewer : ∀ n, t.pool.ref n ≤ s.pool.ref n)
    (versions : ∀ d ∈ t.directory, ∀ v ∈ d.chain, ∃ d' ∈ s.directory, d'.tag = d.tag ∧ v ∈ d'.chain)
    (bodies : ∀ q, ∀ i ∈ (t.txns.get q).intents, ∀ b, i.op.body? = some b →
      ∃ j ∈ (s.txns.get q).intents, j.tag = i.tag ∧ j.op.body? = some b)
    (owned : ∀ q, t.pool.stagedOwned.get q = ownedSum (t.txns.get q).intents)
    (quota : ∀ q, t.pool.stagedOwned.get q ≤ s.pool.stagedOwned.get q)
    (digested : ∀ c, t.engine = .digesting c → digestAt t.pool (bodiesToDigest (t.txns.get c.port).intents) c) : PagesOk t := by
  have hbody : ∀ {q b}, b ∈ stagedBodies q t → b ∈ stagedBodies q s := fun {q b} hb => by
    obtain ⟨i, hi, hb⟩ := mem_stagedBodies.mp hb
    obtain ⟨j, hj, -, hjb⟩ := bodies q i hi b hb
    exact mem_stagedBodies.mpr ⟨j, hj, hjb⟩
  have hlists : ∀ x ∈ pageLists t, x ∈ pageLists s := fun x hx => by
    rcases mem_pageLists.mp hx with ⟨d, hd, v, hv, rfl⟩ | ⟨q, i, hi, b, hb, rfl⟩
    · obtain ⟨d', hd', ht, hv'⟩ := versions d hd v hv
      exact ht ▸ version_mem_pageLists hd' hv'
    · obtain ⟨j, hj, ht, hjb⟩ := bodies q i hi b hb
      exact ht ▸ body_mem_pageLists hj hjb
  have hread : ∀ pages length, t.pool.body pages length = s.pool.body pages length := fun pages length =>
    Pool.body_of_bytes bytes pages length
  have hbyte : ∀ pages k, t.pool.bodyByte pages k = s.pool.bodyByte pages k := fun pages k =>
    Pool.bodyByte_congr (fun n _ j _ => by rw [Pool.pageByte, bytes, Pool.pageByte]) k
  constructor
  case counts => exact fun n => (holds.refs n).trans (heldCount_eq t n)
  case freePages => exact fun n => by rw [holds.refs]; exact holds.freePages n
  case freeOnce => exact holds.freeOnce
  case inPool => exact fun n hn => by rw [holds.refs]; exact holds.inPool n hn
  case versionLists =>
    intro d hd v hv
    obtain ⟨d', hd', -, hv'⟩ := versions d hd v hv
    exact h.versionLists d' hd' v hv'
  case bodyLists => exact fun q b hb => h.bodyLists q b (hbody hb)
  case ownedOnce =>
    intro q b hb x hx hown
    have hone := h.ownedOnce q b (hbody hb) x hx hown
    have hle := fewer x.page
    obtain ⟨i, hi, hib⟩ := mem_stagedBodies.mp hb
    have hpos := heldCount_body hi hib (List.mem_map_of_mem hx)
    rw [← holds.refs] at hpos
    omega
  case stagedOwned => exact fun q => (owned q).trans (ownedSum_eq t q).symm
  case versionTails =>
    intro d hd v hv hne k h1 h2
    obtain ⟨d', hd', -, hv'⟩ := versions d hd v hv
    rw [hbyte]
    exact h.versionTails d' hd' v hv' hne k h1 h2
  case bodyTails => exact fun q b hb k h1 h2 => by rw [hbyte]; exact h.bodyTails q b (hbody hb) k h1 h2
  case oneRecord => exact fun x hx y hy => h.oneRecord x (hlists x hx) y (hlists y hy)
  case quota => exact fun q => (quota q).trans (h.quota q)
  case crcs =>
    intro d hd v hv hlive
    obtain ⟨d', hd', -, hv'⟩ := versions d hd v hv
    have hsame : v.body t.pool = v.body s.pool := Version.body_congr fun n _ j _ => by rw [Pool.pageByte, bytes, Pool.pageByte]
    rw [hsame]
    exact h.crcs d' hd' v hv' hlive
  case digested => exact digested

/-! ### Retirement -/

theorem versionCount_cons (d : DirSlot) (rest : List DirSlot) (m : PageNo) :
    versionCount (d :: rest) m = (d.chain.flatMap Version.pages).count m + versionCount rest m := by
  rw [versionCount, List.flatMap_cons, List.count_append]
  rfl

theorem count_pages_divides {chain kept gone : List Version} (h : chain.Perm (kept ++ gone)) (m : PageNo) :
    (chain.flatMap Version.pages).count m = (kept.flatMap Version.pages).count m + (gone.flatMap Version.pages).count m := by
  rw [(h.flatMap_right Version.pages).count_eq, List.flatMap_append, List.count_append]

/-- A run takes from the version lists what its checks retire. -/
theorem versionCount_retireBy {check : DirSlot → List Version × List Version}
    (hr : ∀ d ∈ s.directory, Retires d.chain (check d)) (m : PageNo) : versionCount (retireBy check s).directory m
      = versionCount s.directory m - (s.directory.flatMap (fun d => (check d).2.flatMap Version.pages)).count m := by
  suffices hsum : versionCount s.directory m = versionCount (retireBy check s).directory m
      + (s.directory.flatMap (fun d => (check d).2.flatMap Version.pages)).count m by omega
  rw [retireBy_directory]
  revert hr
  induction s.directory with
  | nil => exact fun _ => rfl
  | cons d rest ih =>
    intro hr
    have hd := count_pages_divides (hr d List.mem_cons_self).divides m
    have hrest := ih fun x hx => hr x (List.mem_cons_of_mem _ hx)
    rw [versionCount_cons, List.filterMap_cons, List.flatMap_cons, List.count_append, hd, hrest]
    cases hk : (check d).1 with
    | nil =>
      simp only [List.isEmpty_nil, if_true, List.flatMap_nil, List.count_nil]
      omega
    | cons v older =>
      simp only [List.isEmpty_cons, Bool.false_eq_true, if_false, versionCount_cons]
      omega

theorem PagesOk.retireBy (h : PagesOk s) (hm : MemoriesOk s) {check : DirSlot → List Version × List Version}
    (hr : ∀ d ∈ s.directory, Retires d.chain (check d)) : PagesOk (retireBy check s) := by
  have hholds := (h.holds hm).loseAll (s.directory.flatMap (fun d => (check d).2.flatMap Version.pages))
  rw [← retireBy_pool] at hholds
  have hbytes : (Machine.retireBy check s).pool.bytes = s.pool.bytes := by
    rw [retireBy_pool]
    exact Pool.loseAll_bytes ..
  have howned : (Machine.retireBy check s).pool.stagedOwned = s.pool.stagedOwned := by
    rw [retireBy_pool]
    exact Pool.loseAll_stagedOwned ..
  have hheld : ∀ m, heldCount (Machine.retireBy check s) m = heldCount s m
      - (s.directory.flatMap (fun d => (check d).2.flatMap Version.pages)).count m := fun m => by
    have hgone : (s.directory.flatMap (fun d => (check d).2.flatMap Version.pages)).count m ≤ versionCount s.directory m := by
      rw [List.count_flatMap, versionCount, List.count_flatMap]
      refine List.sum_le_sum fun d hd => ?_
      have := count_pages_divides (hr d hd).divides m
      simp only [Function.comp]
      omega
    have hv := versionCount_retireBy hr m
    show versionCount (Machine.retireBy check s).directory m + portSum (fun q => stagedCount (s.txns.get q).intents m)
      = versionCount s.directory m + portSum (fun q => stagedCount (s.txns.get q).intents m) - _
    omega
  refine h.shrink (hholds.congr hheld) hbytes (fun n => ?_) (fun d hd v hv => ?_) (fun q i hi b hb => ⟨i, hi, rfl, hb⟩)
    (fun q => by rw [howned]; exact h.stagedOwned_eq q) (fun q => by rw [howned]) (fun c hc => ?_)
  · rw [hholds.refs, (h.holds hm).refs]
    exact Nat.sub_le _ _
  · obtain ⟨d', hd', -, rfl⟩ := mem_retireBy_directory.mp hd
    exact ⟨d', hd', rfl, (hr d' hd').sublist.subset hv⟩
  · rw [retireBy_engine] at hc
    cases he : s.engine with
    | idle =>
      rw [he] at hc
      cases hc
    | digesting c' =>
      rw [he] at hc
      cases hc
      exact digestAt_congr (h.digested c' he) rfl rfl fun x _ => Pool.body_of_bytes hbytes _ _

/-! ### The end of staged bodies (R33) -/

/-- What the release of staged bodies leaves of the pool. -/
structure Pool.Releases (p : Port) (ns : List PageNo) (owned : Nat) (pool pool' : Pool) : Prop where
  holds : ∀ {held : PageNo → Nat}, pool.Holds held → pool'.Holds (fun m => held m - ns.count m)
  bytes : pool'.bytes = pool.bytes
  own : pool'.stagedOwned.get p = pool.stagedOwned.get p - owned
  rest : ∀ q, q ≠ p → pool'.stagedOwned.get q = pool.stagedOwned.get q

theorem Pool.Releases.refl (p : Port) (pool : Pool) : pool.Releases p [] 0 pool :=
  ⟨fun h => h, rfl, rfl, fun _ _ => rfl⟩

theorem Pool.Releases.trans {pool pool' pool'' : Pool} {ns ns' : List PageNo} {owned owned' : Nat}
    (h : pool.Releases p ns owned pool') (h' : pool'.Releases p ns' owned' pool'') :
    pool.Releases p (ns ++ ns') (owned + owned') pool'' where
  holds hh := (h'.holds (h.holds hh)).congr fun m => by rw [List.count_append]; omega
  bytes := h'.bytes.trans h.bytes
  own := by rw [h'.own, h.own]; omega
  rest q hq := (h'.rest q hq).trans (h.rest q hq)

theorem releaseBody_releases (pool : Pool) (p : Port) (body : StagedBody) :
    pool.Releases p body.pageNos body.ownedCount (pool.releaseBody p body) where
  holds hh := (hh.loseAll body.pageNos).withStagedOwned _
  bytes := Pool.loseAll_bytes ..
  own := by
    show ((pool.loseAll body.pageNos).stagedOwned.set p _).get p = _
    rw [PortMap.get_set_self, Pool.loseAll_stagedOwned]
  rest q hq := by
    show ((pool.loseAll body.pageNos).stagedOwned.set p _).get q = _
    rw [PortMap.get_set_of_ne _ _ hq, Pool.loseAll_stagedOwned]

theorem releaseOp_releases (pool : Pool) (p : Port) (op : IntentOp) : pool.Releases p op.pageNos op.ownedCount (releaseOp p op pool) := by
  cases hb : op.body? with
  | none =>
    rw [IntentOp.pageNos_of_none hb, IntentOp.ownedCount_of_none hb, releaseOp_of_bodiless hb]
    exact .refl p pool
  | some b =>
    have : releaseOp p op pool = pool.releaseBody p b := by simp only [releaseOp, hb]
    rw [IntentOp.pageNos_of_some hb, IntentOp.ownedCount_of_some hb, this]
    exact releaseBody_releases pool p b

theorem releaseBodies_releases (pool : Pool) (p : Port) (intents : List Intent) :
    pool.Releases p (intents.flatMap (fun i => i.op.pageNos)) (ownedSum intents) (releaseBodies p pool intents) := by
  induction intents generalizing pool with
  | nil => exact .refl p pool
  | cons i rest ih => exact (releaseOp_releases pool p i.op).trans (ih _)

/-- The sum of the ports after one of them has changed. -/
theorem portSum_change {f g : Port → Nat} (h : ∀ q, q ≠ p → f q = g q) : portSum f + g p = portSum g + f p := by
  have h0 := h .p0
  have h1 := h .p1
  have h2 := h .p2
  have h3 := h .p3
  cases p <;> simp [portSum] at h0 h1 h2 h3 ⊢ <;> omega

/-- One context changes: how often the lists hold a page. -/
theorem heldCount_setTxn (x : Context) (pool : Pool) (m : PageNo) :
    heldCount ({ s with pool := pool }.setTxn p x) m + stagedCount (s.txns.get p).intents m
      = heldCount s m + stagedCount x.intents m := by
  have hchange := portSum_change (p := p) (f := fun q => stagedCount (({ s with pool := pool }.setTxn p x).txns.get q).intents m)
    (g := fun q => stagedCount (s.txns.get q).intents m) fun q hq => by simp [hq]
  simp only [State.setTxn_txns, PortMap.get_set_self] at hchange
  simp only [heldCount, State.setTxn_txns, State.setTxn_directory]
  omega

/-- A port's context loses staged bodies: their pages lose a holder, its staged-owned count what they owned. -/
theorem PagesOk.dropBodies (h : PagesOk s) (hm : MemoriesOk s) {x : Context} {pool : Pool} {ns : List PageNo} {owned : Nat}
    (hr : s.pool.Releases p ns owned pool)
    (bodies : ∀ i ∈ x.intents, ∀ b, i.op.body? = some b → ∃ j ∈ (s.txns.get p).intents, j.tag = i.tag ∧ j.op.body? = some b)
    (count : ∀ m, stagedCount x.intents m + ns.count m = stagedCount (s.txns.get p).intents m)
    (sum : ownedSum x.intents + owned = ownedSum (s.txns.get p).intents) (free : s.engine.port? ≠ some p) :
    PagesOk ({ s with pool := pool }.setTxn p x) := by
  have hholds := hr.holds (h.holds hm)
  have hheld : ∀ m, heldCount ({ s with pool := pool }.setTxn p x) m = heldCount s m - ns.count m := fun m => by
    have hset := heldCount_setTxn (s := s) (p := p) x pool m
    have hc := count m
    omega
  refine h.shrink (hholds.congr hheld) hr.bytes (fun n => ?_) (fun d hd v hv => ⟨d, hd, rfl, hv⟩)
    (setTxn_forall (s := { s with pool := pool }) (Q := fun q y => ∀ i ∈ y.intents, ∀ b, i.op.body? = some b →
      ∃ j ∈ (s.txns.get q).intents, j.tag = i.tag ∧ j.op.body? = some b) bodies fun q _ i hi b hb => ⟨i, hi, rfl, hb⟩)
    (fun q => ?_) (fun q => ?_) (fun c hc => ?_)
  · show pool.ref n ≤ _
    rw [hholds.refs, (h.holds hm).refs]
    exact Nat.sub_le _ _
  · have hown := h.stagedOwned_eq q
    by_cases hq : q = p
    · subst hq
      simp only [State.setTxn_txns, PortMap.get_set_self]
      show pool.stagedOwned.get q = _
      rw [hr.own]
      omega
    · simp only [State.setTxn_txns, PortMap.get_set_of_ne _ _ hq]
      exact (hr.rest q hq).trans hown
  · by_cases hq : q = p
    · subst hq
      exact hr.own.trans_le (Nat.sub_le _ _)
    · exact (hr.rest q hq).le
  · have hc : s.engine = .digesting c := hc
    have hne : c.port ≠ p := fun e => free (by rw [hc, Engine.port?, e])
    simp only [State.setTxn_txns, PortMap.get_set_of_ne _ _ hne]
    exact digestAt_congr (h.digested c hc) rfl rfl fun y _ => Pool.body_of_bytes hr.bytes _ _

end Sys2Proof.Machine
end

section
/-! SUPPORT. Page conservation under the requests of the transaction unit: a granted claim puts its body in the place of
the one it started from. -/

namespace Sys2Proof.Machine

variable {s t : State} {p : Port} {tag : Tag}

/-! ### Intent lists -/

theorem stagedCount_append (xs ys : List Intent) (m : PageNo) : stagedCount (xs ++ ys) m = stagedCount xs m + stagedCount ys m := by
  rw [stagedCount, List.flatMap_append, List.count_append]
  rfl

theorem ownedSum_append (xs ys : List Intent) : ownedSum (xs ++ ys) = ownedSum xs + ownedSum ys := by
  rw [ownedSum, List.map_append, List.sum_append]
  rfl

/-- The entry of a tag divides an intent list whose tags differ; a change and a removal concern it alone. -/
theorem split_of_findIntent {intents : List Intent} (hnodup : (intents.map Intent.tag).Nodup) {i : Intent}
    (found : findIntent intents tag = some i) : ∃ before behind, intents = before ++ i :: behind
      ∧ (∀ op, changeIntent intents tag op = before ++ ⟨tag, op⟩ :: behind) ∧ removeIntent intents tag = before ++ behind := by
  obtain ⟨hi, rfl⟩ := findIntent_mem found
  obtain ⟨before, behind, rfl⟩ := List.append_of_mem hi
  rw [List.map_append, List.map_cons, List.nodup_middle, List.nodup_cons, ← List.map_append] at hnodup
  have hne : ∀ j ∈ before ++ behind, j.tag ≠ i.tag := fun j hj he => hnodup.1 (he ▸ List.mem_map_of_mem hj)
  have hsame : ∀ op (l : List Intent), (∀ j ∈ l, j.tag ≠ i.tag) → changeIntent l i.tag op = l := fun op l hl => by
    refine (List.map_congr_left fun j hj => ?_).trans (List.map_id' l)
    exact if_neg (by simpa using hl j hj)
  have hkeep : ∀ l : List Intent, (∀ j ∈ l, j.tag ≠ i.tag) → removeIntent l i.tag = l := fun l hl =>
    List.filter_eq_self.mpr fun j hj => by simpa using hl j hj
  have hb : ∀ j ∈ before, j.tag ≠ i.tag := fun j hj => hne j (List.mem_append_left _ hj)
  have hd : ∀ j ∈ behind, j.tag ≠ i.tag := fun j hj => hne j (List.mem_append_right _ hj)
  refine ⟨before, behind, rfl, fun op => ?_, ?_⟩
  · have hcut : changeIntent (before ++ i :: behind) i.tag op
        = changeIntent before i.tag op ++ changeIntent [i] i.tag op ++ changeIntent behind i.tag op := by
      simp only [changeIntent, List.map_append, List.map_cons, List.map_nil, List.append_assoc, List.singleton_append]
    rw [hcut, hsame op before hb, hsame op behind hd, List.append_assoc]
    simp [changeIntent]
  · have hcut : removeIntent (before ++ i :: behind) i.tag = removeIntent before i.tag ++ removeIntent behind i.tag := by
      simp [removeIntent]
    rw [hcut, hkeep before hb, hkeep behind hd]

theorem stagedCount_middle (before behind : List Intent) (i : Intent) (m : PageNo) :
    stagedCount (before ++ i :: behind) m = stagedCount (before ++ behind) m + i.op.pageNos.count m := by
  rw [stagedCount_append, stagedCount_append, stagedCount_cons]
  omega

theorem ownedSum_middle (before behind : List Intent) (i : Intent) :
    ownedSum (before ++ i :: behind) = ownedSum (before ++ behind) + i.op.ownedCount := by
  rw [ownedSum_append, ownedSum_append, ownedSum_cons]
  omega

/-! ### A granted claim -/

/-- What the intent list after a granted claim holds: the claimed body under its tag, and the bodies of the other tags. -/
structure ClaimedList (start : Start) (tag : Tag) (body' : StagedBody) (intents intents' : List Intent) : Prop where
  new : ∃ op, (⟨tag, op⟩ : Intent) ∈ intents' ∧ op.body? = some body'
  mem : ∀ i ∈ intents', i.tag = tag ∧ i.op.body? = some body' ∨ i ∈ intents ∧ i.tag ≠ tag
  count : ∀ m, stagedCount intents' m + start.body.pageNos.count m
    = stagedCount intents m + body'.pageNos.count m + (match start with
      | .entry _ _ => 0
      | .firstTouch _ _ _ => start.body.pageNos.count m)
  sum : ownedSum intents' + start.body.ownedCount = ownedSum intents + body'.ownedCount

theorem pageNos_ofBase (length : Nat) (pages : List PageNo) : (StagedBody.ofBase length pages).pageNos = pages := by
  simp only [StagedBody.ofBase, StagedBody.pageNos, List.map_map]
  exact List.map_id' pages

theorem ownedCount_ofBase (length : Nat) (pages : List PageNo) : (StagedBody.ofBase length pages).ownedCount = 0 := by
  rw [StagedBody.ownedCount, StagedBody.ofBase, List.countP_map, List.countP_eq_zero]
  exact fun _ _ ho => by cases ho

theorem claimedList_of_found {start : Start} (hnodup : ((s.txns.get p).intents.map Intent.tag).Nodup)
    (found : findStart p tag s = .ok start) (body' : StagedBody) :
    ClaimedList start tag body' (s.txns.get p).intents (start.intentsAfter tag body' (s.txns.get p).intents) := by
  cases start with
  | entry op old =>
    obtain ⟨i, hi, rfl, hop⟩ := findStart_entry found
    obtain ⟨-, rfl⟩ := findIntent_mem hi
    obtain ⟨before, behind, hsplit, hchange, -⟩ := split_of_findIntent hnodup hi
    have hnew : ((Start.entry i.op old).op body').body? = some body' := by
      rcases hop with ⟨attrs, staged, hop, -⟩ | ⟨base, hop⟩ <;> rw [hop] <;> rfl
    have hold : i.op.pageNos = old.pageNos ∧ i.op.ownedCount = old.ownedCount := by
      rcases hop with ⟨attrs, staged, hop, rfl⟩ | ⟨base, hop⟩ <;> rw [hop]
      · cases staged <;> exact ⟨rfl, rfl⟩
      · exact ⟨rfl, rfl⟩
    have hafter : (Start.entry i.op old).intentsAfter i.tag body' (s.txns.get p).intents
        = before ++ ⟨i.tag, (Start.entry i.op old).op body'⟩ :: behind := hchange _
    have hne : ∀ j ∈ before ++ behind, j.tag ≠ i.tag := fun j hj he => by
      rw [hsplit, List.map_append, List.map_cons, List.nodup_middle, List.nodup_cons, ← List.map_append] at hnodup
      exact hnodup.1 (he ▸ List.mem_map_of_mem hj)
    rw [hafter, hsplit]
    refine ⟨⟨_, by simp, hnew⟩, fun j hj => ?_, fun m => ?_, ?_⟩
    · rw [List.mem_append, List.mem_cons] at hj
      rcases hj with hj | rfl | hj
      · exact .inr ⟨List.mem_append_left _ hj, hne j (List.mem_append_left _ hj)⟩
      · exact .inl ⟨rfl, hnew⟩
      · exact .inr ⟨List.mem_append_right _ (List.mem_cons_of_mem _ hj), hne j (List.mem_append_right _ hj)⟩
    · rw [stagedCount_middle, stagedCount_middle, IntentOp.pageNos_of_some hnew, hold.1]
      show _ + old.pageNos.count m = _ + 0
      omega
    · rw [ownedSum_middle, ownedSum_middle, IntentOp.ownedCount_of_some hnew, hold.2]
      show _ + old.ownedCount = _
      omega
  | firstTouch base length pages =>
    obtain ⟨habsent, -, -⟩ := findStart_firstTouch found
    have hafter : (Start.firstTouch base length pages).intentsAfter tag body' (s.txns.get p).intents
        = (s.txns.get p).intents ++ [⟨tag, .written base body'⟩] := rfl
    rw [hafter]
    refine ⟨⟨.written base body', by simp, rfl⟩, fun j hj => ?_, fun m => ?_, ?_⟩
    · rcases List.mem_append.mp hj with hj | hj
      · exact .inr ⟨hj, findIntent_eq_none_iff.mp habsent j hj⟩
      · obtain rfl := List.mem_singleton.mp hj
        exact .inl ⟨rfl, rfl⟩
    · rw [stagedCount_append, stagedCount_cons]
      show _ + (body'.pageNos.count m + 0) + _ = _ + _ + (Start.firstTouch base length pages).body.pageNos.count m
      omega
    · rw [ownedSum_append, ownedSum_cons]
      show _ + (body'.ownedCount + 0) + (StagedBody.ofBase length pages).ownedCount = _
      rw [ownedCount_ofBase]
      omega

/-- The pages of a first touch are those of the tag's newest version. -/
theorem firstTouch_version {base : Gen} {length : Nat} {pages : List PageNo}
    (found : findStart p tag s = .ok (.firstTouch base length pages)) :
    ∃ d ∈ s.directory, d.tag = tag ∧ ∃ v ∈ d.chain, v.pages = pages := by
  obtain ⟨-, -, attrs, crc, hl⟩ := findStart_firstTouch found
  have hv := head?_of_lookup (.inr hl)
  have hne : chainOf s.directory tag ≠ [] := fun hn => by
    rw [hn] at hv
    cases hv
  obtain ⟨d, hd, ht, hchain⟩ := exists_slot_of_chainOf_ne_nil hne
  exact ⟨d, hd, ht, _, List.mem_of_mem_head? (hchain ▸ hv), rfl⟩

/-- A page that a claim starts from is in a list of its tag. -/
theorem listed_of_start {start : Start} (found : findStart p tag s = .ok start) {m : PageNo} (hm : m ∈ start.body.pageNos) :
    ∃ y ∈ pageLists s, y.1 = tag ∧ m ∈ y.2 := by
  cases start with
  | entry op old =>
    obtain ⟨i, hi, rfl, rfl, hb | ⟨-, rfl⟩⟩ := body?_of_entry found
    · exact ⟨_, body_mem_pageLists hi hb, rfl, hm⟩
    · exact absurd hm List.not_mem_nil
  | firstTouch base length pages =>
    obtain ⟨d, hd, rfl, v, hv, rfl⟩ := firstTouch_version found
    exact ⟨_, version_mem_pageLists hd hv, rfl, pageNos_ofBase length v.pages ▸ hm⟩

/-- A page that a claim starts from and another port's or tag's body holds too has a count above 1. -/
theorem shared_of_start (h : PagesOk s) (hm : MemoriesOk s) {start : Start} (found : findStart p tag s = .ok start) {m : PageNo}
    (hstart : m ∈ start.body.pageNos) {q : Port} {i : Intent} (hi : i ∈ (s.txns.get q).intents) (hne : ¬ (q = p ∧ i.tag = tag))
    (hmi : m ∈ i.op.pageNos) : 1 < s.pool.ref m := by
  have hin := startIn_of_found h hm found
  have hother := hin.bodies q i hi hne m hmi
  rw [(h.holds hm).refs]
  cases start with
  | entry op old =>
    have hpos : 0 < old.pageNos.count m := List.count_pos_iff.mpr hstart
    have hother : heldCount s m - old.pageNos.count m ≠ 0 := hother
    omega
  | firstTouch base length pages =>
    obtain ⟨d, hd, -, v, hv, rfl⟩ := firstTouch_version found
    have hpos := versionCount_pos hd hv (m := m) (pageNos_ofBase length v.pages ▸ hstart)
    have hstaged : 0 < i.op.pageNos.count m := List.count_pos_iff.mpr hmi
    have h1 := count_le_stagedCount hi m
    have h2 := le_portSum (fun q => stagedCount (s.txns.get q).intents m) q
    rw [heldCount]
    omega

/-- How often the other lists hold a page is what they held before the claim. -/
theorem otherCount_le (h : PagesOk s) (hm : MemoriesOk s) (start : Start) (m : PageNo) : otherCount s start m ≤ s.pool.ref m := by
  rw [(h.holds hm).refs]
  cases start with
  | entry op old => exact Nat.sub_le _ _
  | firstTouch base length pages => exact Nat.le_refl _

/-- A granted claim: the pages of its body are counted, every other list's page keeps its bytes and its holders. -/
theorem PagesOk.claimed (h : PagesOk s) (hm : MemoriesOk s) (hc : ContextsOk s) {start : Start}
    (found : findStart p tag s = .ok start) {freed : List PageNo} {released taken length : Nat} {contents : Nat → Byte}
    {changed pool : Pool} {body' : StagedBody}
    (claim : ClaimedAs (otherCount s start) freed released taken (start.pool s.pool) start.body changed body' length contents)
    (clear : ∀ k, length ≤ k → contents k = 0#8)
    (quota : s.pool.stagedOwned.get p + body'.ownedCount - start.body.ownedCount ≤ 256)
    (hpool : pool = { changed with
      stagedOwned := changed.stagedOwned.set p (s.pool.stagedOwned.get p + body'.ownedCount - start.body.ownedCount) })
    (free : s.engine.port? ≠ some p) {x : Context} (hx : x.intents = start.intentsAfter tag body' (s.txns.get p).intents) :
    PagesOk ({ s with pool := pool }.setTxn p x) := by
  have hin := startIn_of_found h hm found
  have hlist := claimedList_of_found (hc.contexts p).tagsDiffer found body'
  rw [← hx] at hlist
  have hcl := claim.toClaimed
  have hbyte : ∀ n j, pool.pageByte n j = changed.pageByte n j := fun n j => by rw [hpool, Pool.pageByte, Pool.pageByte]
  have hbody : ∀ pages k, pool.bodyByte pages k = changed.bodyByte pages k := fun pages k =>
    Pool.bodyByte_congr (fun n _ j _ => hbyte n j) k
  have hown : pool.stagedOwned.get p = s.pool.stagedOwned.get p + body'.ownedCount - start.body.ownedCount := by
    rw [hpool]
    exact PortMap.get_set_self ..
  have hrest : ∀ q, q ≠ p → pool.stagedOwned.get q = s.pool.stagedOwned.get q := fun q hq => by
    rw [hpool]
    show (changed.stagedOwned.set p _).get q = _
    rw [PortMap.get_set_of_ne _ _ hq, hcl.stagedOwned, hin.stagedOwned]
  have hheld : ∀ m, heldCount ({ s with pool := pool }.setTxn p x) m = otherCount s start m + body'.pageNos.count m := fun m => by
    have hset := heldCount_setTxn (s := s) (p := p) x pool m
    have hcount := hlist.count m
    cases start with
    | entry op old =>
      have hadd : s.pool.ref m = otherCount s (.entry op old) m + old.pageNos.count m := hin.body.holds.refs m
      have hcount : stagedCount x.intents m + old.pageNos.count m = _ + body'.pageNos.count m + 0 := hcount
      have href := (h.holds hm).refs m
      omega
    | firstTouch base n pages =>
      have hother : otherCount s (.firstTouch base n pages) m = heldCount s m := rfl
      dsimp only at hcount
      omega
  have holds : pool.Holds (heldCount ({ s with pool := pool }.setTxn p x)) := by
    have := (hcl.after.holds.withStagedOwned
      (changed.stagedOwned.set p (s.pool.stagedOwned.get p + body'.ownedCount - start.body.ownedCount))).congr hheld
    rwa [← hpool] at this
  have hintents : ∀ q, ∀ i ∈ (({ s with pool := pool }.setTxn p x).txns.get q).intents,
      (i.tag = tag ∧ i.op.body? = some body') ∨ (i ∈ (s.txns.get q).intents ∧ ¬ (q = p ∧ i.tag = tag)) := by
    refine setTxn_forall (s := { s with pool := pool }) (Q := fun q y => ∀ i ∈ y.intents,
      (i.tag = tag ∧ i.op.body? = some body') ∨ (i ∈ (s.txns.get q).intents ∧ ¬ (q = p ∧ i.tag = tag))) (fun i hi => ?_)
      fun q hq i hi => .inr ⟨hi, fun he => hq he.1⟩
    exact (hlist.mem i hi).imp_right fun ⟨hi, hne⟩ => ⟨hi, fun he => hne he.2⟩
  have hbodies : ∀ q b, b ∈ stagedBodies q ({ s with pool := pool }.setTxn p x) →
      b = body' ∨ ∃ i ∈ (s.txns.get q).intents, ¬ (q = p ∧ i.tag = tag) ∧ i.op.body? = some b := by
    intro q b hb
    obtain ⟨i, hi, hib⟩ := mem_stagedBodies.mp hb
    rcases hintents q i hi with ⟨-, hnew⟩ | ⟨hi, hne⟩
    · exact .inl (Option.some_inj.mp (hib.symm.trans hnew))
    · exact .inr ⟨i, hi, hne, hib⟩
  have hlists : ∀ y ∈ pageLists ({ s with pool := pool }.setTxn p x),
      y = (tag, body'.pageNos) ∨ (y ∈ pageLists s ∧ ∀ n ∈ y.2, otherCount s start n ≠ 0) := by
    intro y hy
    rcases mem_pageLists.mp hy with ⟨d, hd, v, hv, rfl⟩ | ⟨q, i, hi, b, hb, rfl⟩
    · exact .inr ⟨version_mem_pageLists (s := s) hd hv, fun n hn => hin.versions d hd v hv n hn⟩
    · rcases hintents q i hi with ⟨rfl, hnew⟩ | ⟨hi, hne⟩
      · rw [Option.some_inj.mp (hb.symm.trans hnew)]
        exact .inl rfl
      · exact .inr ⟨body_mem_pageLists hi hb, fun n hn => hin.bodies q i hi hne n (IntentOp.pageNos_of_some hb ▸ hn)⟩
  -- a page of the claimed body that another list holds comes from the body that the claim started from
  have horigin : ∀ y ∈ pageLists s, ∀ n ∈ y.2, otherCount s start n ≠ 0 → n ∈ body'.pageNos → y.1 = tag := by
    intro y hy n hny hother hn
    obtain ⟨z, hz, htag, hnz⟩ := listed_of_start found ((hcl.origin n hn).resolve_right hother)
    exact (h.oneRecord y hy z hz n hny hnz).trans htag
  constructor
  case counts => exact fun n => (holds.refs n).trans (heldCount_eq _ n)
  case freePages => exact fun n => (holds.freePages n).trans (by rw [← holds.refs]; rfl)
  case freeOnce => exact holds.freeOnce
  case inPool => exact fun n hn => (holds.refs n).trans (holds.inPool n hn)
  case versionLists => exact h.versionLists
  case bodyLists =>
    intro q b hb
    rcases hbodies q b hb with rfl | ⟨i, hi, -, hib⟩
    · exact claim.listOk
    · exact h.bodyLists q b (mem_stagedBodies.mpr ⟨i, hi, hib⟩)
  case ownedOnce =>
    intro q b hb y hy hyo
    refine (holds.refs y.page).trans ((hheld y.page).trans ?_)
    rcases hbodies q b hb with rfl | ⟨i, hi, hne, hib⟩
    · rw [hcl.after.owned y hy hyo, List.count_eq_one_of_mem hcl.after.nodup (List.mem_map_of_mem hy)]
    · have hone := h.ownedOnce q b (mem_stagedBodies.mpr ⟨i, hi, hib⟩) y hy hyo
      have hyi : y.page ∈ i.op.pageNos := IntentOp.pageNos_of_some hib ▸ List.mem_map_of_mem hy
      have hother := hin.bodies q i hi hne y.page hyi
      have hle := otherCount_le h hm start y.page
      have hout : y.page ∉ body'.pageNos := fun hin' => by
        have := shared_of_start h hm found ((hcl.origin y.page hin').resolve_right hother) hi hne hyi
        omega
      rw [List.count_eq_zero_of_not_mem hout]
      omega
  case stagedOwned =>
    intro q
    rw [ownedSum_eq]
    have hsum := hlist.sum
    have hp := h.stagedOwned_eq p
    have hle := hin.owned
    by_cases hq : q = p
    · subst hq
      simp only [State.setTxn_txns, PortMap.get_set_self, State.setTxn_pool]
      omega
    · simp only [State.setTxn_txns, PortMap.get_set_of_ne _ _ hq, State.setTxn_pool]
      exact (hrest q hq).trans (h.stagedOwned_eq q)
  case versionTails =>
    intro d hd v hv hne k h1 h2
    refine (Pool.bodyByte_congr (fun m hmv j hj => ?_) k).trans (h.versionTails d hd v hv hne k h1 h2)
    exact (hbyte m j).trans (hin.kept hcl (hin.versions d hd v hv m hmv) hj)
  case bodyTails =>
    intro q b hb k h1 h2
    refine (hbody b.pageNos k).trans ?_
    rcases hbodies q b hb with rfl | ⟨i, hi, hne, hib⟩
    · exact claim.tailClear clear k h1 h2
    · refine (Pool.bodyByte_congr (fun m hmb j hj => ?_) k).trans
        (h.bodyTails q b (mem_stagedBodies.mpr ⟨i, hi, hib⟩) k h1 h2)
      exact hin.kept hcl (hin.bodies q i hi hne m (IntentOp.pageNos_of_some hib ▸ hmb)) hj
  case oneRecord =>
    intro y hy z hz n hny hnz
    rcases hlists y hy with rfl | ⟨hys, hyo⟩
    · rcases hlists z hz with rfl | ⟨hzs, hzo⟩
      · rfl
      · exact (horigin z hzs n hnz (hzo n hnz) hny).symm
    · rcases hlists z hz with rfl | ⟨hzs, hzo⟩
      · exact horigin y hys n hny (hyo n hny) hnz
      · exact h.oneRecord y hys z hzs n hny hnz
  case quota =>
    intro q
    by_cases hq : q = p
    · subst hq
      exact hown.trans_le quota
    · exact (hrest q hq).trans_le (h.quota q)
  case crcs =>
    intro d hd v hv hlive
    refine (h.crcs d hd v hv hlive).trans (congrArg crc16 (Version.body_congr fun m hmv j hj => ?_).symm)
    exact (hbyte m j).trans (hin.kept hcl (hin.versions d hd v hv m hmv) hj)
  case digested =>
    intro c hcd
    have hcd : s.engine = .digesting c := hcd
    have hne : c.port ≠ p := fun e => free (by rw [hcd, Engine.port?, e])
    simp only [State.setTxn_txns, PortMap.get_set_of_ne _ _ hne]
    refine digestAt_congr (h.digested c hcd) rfl rfl fun y hy => ?_
    obtain ⟨i, hi, -, hib⟩ := mem_bodiesToDigest hy
    refine Pool.body_congr (fun m hmb j hj => ?_) _
    exact (hbyte m j).trans (hin.kept hcl (hin.bodies c.port i hi (fun he => hne he.1) m (IntentOp.pageNos_of_some hib ▸ hmb)) hj)

end Sys2Proof.Machine
end

section
/-! SUPPORT. Page conservation under the requests of the transaction unit, PORT_RESET and the engine's digesting. -/

namespace Sys2Proof.Machine

variable {s t : State} {p : Port} {tag : Tag}

/-! ### Requests -/

/-- Another context with the same intents. -/
theorem PagesOk.setTxn_same (h : PagesOk s) (x : Context) (queue : List Port) (hx : x.intents = (s.txns.get p).intents) :
    PagesOk ({ s with commitQueue := queue }.setTxn p x) :=
  h.of_eq rfl rfl (setTxn_forall (s := { s with commitQueue := queue }) (Q := fun q y => y.intents = (s.txns.get q).intents) hx
    fun _ _ => rfl) h.digested

/-- A context that ends: its bodies are released (R33, R82). -/
theorem PagesOk.endBodies (h : PagesOk s) (hm : MemoriesOk s) (free : s.engine.port? ≠ some p) {x : Context} (hx : x.intents = [])
    (queue : List Port) : PagesOk ({ s with
      pool := releaseBodies p s.pool (s.txns.get p).intents, commitQueue := queue }.setTxn p x) := by
  have hdrop := h.dropBodies (x := x) hm (releaseBodies_releases s.pool p (s.txns.get p).intents)
    (by rw [hx]; exact fun i hi => absurd hi List.not_mem_nil) (fun m => by rw [hx, stagedCount, List.flatMap_nil]; exact Nat.zero_add _)
    (by rw [hx]; exact Nat.zero_add _) free
  exact hdrop.of_store rfl rfl rfl rfl

theorem start_length_eq (start : Start) : start.length = start.body.length := by
  cases start <;> rfl

/-- What a granted claim makes of its body, WRITE's or RESIZE's. -/
theorem ClaimChange.granted {start : Start} (hin : StartIn s p tag start) {change : Pool → StagedBody → Option (Pool × StagedBody)}
    (asked : ClaimChange start.length change) {changed : Pool} {body' : StagedBody}
    (h : change (start.pool s.pool) start.body = some (changed, body')) : ∃ freed released taken length contents,
      ClaimedAs (otherCount s start) freed released taken (start.pool s.pool) start.body changed body' length contents
        ∧ ∀ k, length ≤ k → contents k = 0#8 := by
  have hold : ∀ k, start.body.length ≤ k → (start.pool s.pool).bodyByte start.body.pageNos k = 0#8 := fun k hk =>
    bodyByte_past_end hin.tail hk
  cases asked with
  | write offset data nonempty short within room =>
    rw [start_length_eq] at within
    obtain ⟨taken, hc⟩ := writeBody_granted hin.body hin.listOk nonempty within room h
    exact ⟨_, _, taken, _, _, hc, fun k hk => writtenByte_past hold hk⟩
  | resize asked room =>
    obtain ⟨freed, released, taken, hc⟩ := resizeBody_granted hin.body hin.listOk hin.tail room h
    exact ⟨freed, released, taken, _, _, hc, fun k hk => resizedByte_past hk⟩

/-- A staging request of a port that the engine does not commit for. -/
theorem PagesOk.staged (h : PagesOk s) (hm : MemoriesOk s) (hc : ContextsOk s) (free : s.engine.port? ≠ some p)
    (hst : Staged p s t) : PagesOk (noteStaging p .none t) := by
  have hnodup := (hc.contexts p).tagsDiffer
  cases hst with
  | appended tag op record absent room bodiless live =>
    rw [noteStaging_withIntents p .none _ s.pool s]
    refine h.dropBodies hm (.refl p s.pool) (fun i hi b hb => ?_) (fun m => ?_) ?_ free
    · rcases List.mem_append.mp hi with hi | hi
      · exact ⟨i, hi, rfl, hb⟩
      · obtain rfl := List.mem_singleton.mp hi
        have hb : op.body? = some b := hb
        rw [bodiless] at hb
        cases hb
    · rw [stagedCount_append, stagedCount_cons]
      show _ + (op.pageNos.count m + 0) + 0 = _
      rw [IntentOp.pageNos_of_none bodiless]
      rfl
    · rw [ownedSum_append, ownedSum_cons]
      show _ + (op.ownedCount + 0) + 0 = _
      rw [IntentOp.ownedCount_of_none bodiless]
      rfl
  | changed tag i op found bodiless base =>
    obtain ⟨before, behind, hsplit, hchange, -⟩ := split_of_findIntent hnodup found
    rw [noteStaging_withIntents]
    refine h.dropBodies hm (releaseOp_releases s.pool p i.op) (fun j hj b hb => ?_) (fun m => ?_) ?_ free
    · rcases mem_changeIntent hj with hj | rfl
      · exact ⟨j, hj, rfl, hb⟩
      · have hb : op.body? = some b := hb
        rw [bodiless] at hb
        cases hb
    · dsimp only
      rw [hchange, hsplit, stagedCount_middle, stagedCount_middle, IntentOp.pageNos_of_none bodiless]
      rfl
    · dsimp only
      rw [hchange, hsplit, ownedSum_middle, ownedSum_middle, IntentOp.ownedCount_of_none bodiless]
      rfl
  | removed tag i found =>
    obtain ⟨before, behind, hsplit, -, hremove⟩ := split_of_findIntent hnodup found
    rw [noteStaging_withIntents]
    refine h.dropBodies hm (releaseOp_releases s.pool p i.op) (fun j hj b hb => ⟨j, List.mem_of_mem_filter hj, rfl, hb⟩)
      (fun m => ?_) ?_ free
    · dsimp only
      rw [hremove, hsplit, stagedCount_middle]
    · dsimp only
      rw [hremove, hsplit, ownedSum_middle]
  | claimed tag start change pool body record found asked granted =>
    obtain ⟨changed, hchange, hquota, hpool⟩ := stagedClaim_inv granted
    obtain ⟨freed, released, taken, length, contents, hclaim, hclear⟩ := asked.granted (startIn_of_found h hm found) hchange
    rw [noteStaging_withIntents]
    exact h.claimed hm hc found hclaim hclear hquota hpool free rfl

theorem PagesOk.takingOf_txn (h : PagesOk s) (hm : MemoriesOk s) (hc : ContextsOk s) {r : Request} (hr : r ∈ txnRequests)
    {args : List Byte} (complete : Complete r args) : PagesOk (takingOf r p args s).1 := by
  have free : ¬ (s.txns.get p).state.taken → s.engine.port? ≠ some p := fun hs he => hs ((hc.committer p).mpr he)
  have opened : (s.txns.get p).state = .opened → s.engine.port? ≠ some p := fun ho => free (CtxState.plain.not_taken (.inr ho))
  refine takingOf_txn_of hr complete h (fun hs _ => ?_) (fun _ _ _ => h.setTxn_same _ s.commitQueue rfl)
    (fun hs t hst => h.staged hm hc (opened hs) hst) (fun _ _ => h.setTxn_same _ s.commitQueue rfl)
    (fun _ _ => h.setTxn_same _ _ rfl)
    (fun hs => h.endBodies hm (opened hs) rfl s.commitQueue) (fun hs => ?_)
  · exact h.setTxn_same _ s.commitQueue ((hc.contexts p).noneEmpty hs).symm
  · exact h.endBodies hm (free (by rw [hs]; rintro (ht | ht) <;> cases ht)) rfl _

theorem PagesOk.resetTxn (h : PagesOk s) (hm : MemoriesOk s) (hc : ContextsOk s) (p : Port) : PagesOk (resetTxn p s) := by
  refine resetTxn_of hc (fun _ => h.setTxn_same _ s.commitQueue rfl)
    (fun hs => h.setTxn_same _ s.commitQueue ((hc.contexts p).noneEmpty hs).symm) (fun hs => ?_)
  have hnot : ¬ (s.txns.get p).state.taken := by
    rcases hs with hs | hs <;> rw [hs] <;> rintro (ht | ht) <;> cases ht
  have := h.endBodies hm (fun he => hnot ((hc.committer p).mpr he)) (x := ⟨.none, [], none, .none, .none⟩) rfl
    (s.commitQueue.filter (fun q => q != p))
  simpa [Machine.discardTxn, leaveQueue] using this

/-! ### Digesting (R105, R106) -/

theorem Pool.body_getElem? (pool : Pool) (pages : List PageNo) {length k : Nat} (hk : k < length) :
    (pool.body pages length)[k]? = some (pool.bodyByte pages k) := by
  rw [Pool.body, List.getElem?_map, List.getElem?_range hk]
  rfl

/-- The bytes of a body up to the end of its page `k`: those up to its start and those in it. -/
theorem Pool.body_take_page (pool : Pool) {pages : List PageNo} {k : Nat} {n : PageNo} (hn : pages[k]? = some n) (length : Nat) :
    (pool.body pages length).take (32 * (k + 1))
      = (pool.body pages length).take (32 * k) ++ (pool.page n).take (length - 32 * k) := by
  rw [Nat.mul_succ, List.take_add]
  refine congrArg _ (List.ext_getElem? fun j => ?_)
  rw [List.getElem?_take, List.getElem?_take, List.getElem?_drop]
  by_cases hj : j < 32
  · rw [if_pos hj]
    by_cases hl : 32 * k + j < length
    · have hdiv : (32 * k + j) / 32 = k := by omega
      have hmod : (32 * k + j) % 32 = j := by omega
      rw [Pool.body_getElem? pool pages hl, if_pos (by omega), pool.page_getElem? n hj, Pool.bodyByte_eq, hdiv, hn, hmod]
      rfl
    · rw [if_neg (by omega), List.getElem?_eq_none (by rw [Pool.body_length]; omega)]
  · rw [if_neg hj]
    split
    · exact (List.getElem?_eq_none (by rw [Pool.page_length]; omega)).symm
    · rfl

theorem digestAfter_zero (pool : Pool) (x : Tag × StagedBody) : digestAfter pool 0 x = ⟨x.1, x.2.pageNos, x.2.length, crcStart⟩ := rfl

theorem digestsOf_eq_bodiesToDigest (pool : Pool) (intents : List Intent) :
    digestsOf intents = (bodiesToDigest intents).map (digestAfter pool 0) := by
  induction intents with
  | nil => rfl
  | cons i rest ih =>
    have hcons : ∀ {α : Type} (f : Intent → Option α), (i :: rest).filterMap f = [i].filterMap f ++ rest.filterMap f := fun f =>
      List.filterMap_append (l := [i]) (l' := rest)
    rw [digestsOf, hcons, bodiesToDigest, hcons, List.map_append]
    refine congrArg₂ _ ?_ ih
    cases hb : i.op.body? with
    | none => simp [hb]
    | some b =>
      cases hp : b.pages with
      | nil => simp [hb, hp]
      | cons y ys => simp [hb, hp, digestAfter_zero]

/-- PAGE_DIGESTED feeds the next page of the body in progress (R106). -/
theorem digestAt_digestPage {pool : Pool} {bodies : List (Tag × StagedBody)} {c : Commit} (h : digestAt pool bodies c)
    (hlists : ∀ x ∈ bodies, x.2.listOk) (hpages : ∀ x ∈ bodies, x.2.pages ≠ []) : digestAt pool bodies (c.digestPage pool) := by
  obtain ⟨before, behind, rfl, hdone, htodo⟩ := h
  cases behind with
  | nil =>
    have hsame : c.digestPage pool = c := by simp only [Commit.digestPage, show c.todo = [] from htodo]
    rw [hsame]
    exact ⟨before, [], rfl, hdone, htodo⟩
  | cons x rest =>
    obtain ⟨k, hk, htodo⟩ := htodo
    have hx : x ∈ before ++ x :: rest := by simp
    obtain ⟨-, hlength, -⟩ := (StagedBody.listOk_iff _).mp (hlists x hx)
    have hlt : k < x.2.pageNos.length := by simpa [StagedBody.pageNos] using hk
    have hget : x.2.pageNos[k]? = some x.2.pageNos[k] := List.getElem?_eq_getElem hlt
    have hdrop : x.2.pageNos.drop k = x.2.pageNos[k] :: x.2.pageNos.drop (k + 1) := List.drop_eq_getElem_cons hlt
    have hfed : (digestAfter pool k x).feed pool x.2.pageNos[k] (x.2.pageNos.drop (k + 1)) = digestAfter pool (k + 1) x := by
      have hleft : x.2.length - 32 * k - 32 = x.2.length - 32 * (k + 1) := by omega
      have hcrc : crcFeed (crcFeed 0xFFFF#16 ((pool.body x.2.pageNos x.2.length).take (32 * k)))
          ((pool.page x.2.pageNos[k]).take (x.2.length - 32 * k))
          = crcFeed 0xFFFF#16 ((pool.body x.2.pageNos x.2.length).take (32 * (k + 1))) := by
        rw [← crcFeed_append, ← pool.body_take_page hget]
      exact congr (congrArg (Digest.mk x.1 (x.2.pageNos.drop (k + 1))) hleft) hcrc
    have hstep : c.digestPage pool = if (x.2.pageNos.drop (k + 1)).isEmpty then
          { c with todo := rest.map (digestAfter pool 0), done := c.done ++ [(x.1, (digestAfter pool (k + 1) x).crc)] }
        else { c with todo := digestAfter pool (k + 1) x :: rest.map (digestAfter pool 0) } := by
      have hp : (digestAfter pool k x).pages = x.2.pageNos[k] :: x.2.pageNos.drop (k + 1) := hdrop
      simp only [Commit.digestPage, htodo, hp, hfed]
      rfl
    rw [hstep]
    by_cases hlast : k + 1 = x.2.pages.length
    · have hempty : (x.2.pageNos.drop (k + 1)).isEmpty = true := by
        rw [List.isEmpty_iff, List.drop_eq_nil_iff]
        simp [StagedBody.pageNos, hlast]
      rw [if_pos hempty]
      refine ⟨before ++ [x], rest, by simp, ?_, ?_⟩
      · have hall : (pool.body x.2.pageNos x.2.length).take (32 * (k + 1)) = pool.body x.2.pageNos x.2.length :=
          List.take_of_length_le (by rw [Pool.body_length]; omega)
        have hcrc : (digestAfter pool (k + 1) x).crc = crc16 (pool.body x.2.pageNos x.2.length) := congrArg (crcFeed 0xFFFF#16) hall
        simp only [hdone, hcrc, List.map_append, List.map_cons, List.map_nil]
      · cases rest with
        | nil => rfl
        | cons y rest =>
          exact ⟨0, List.length_pos_iff.mpr (hpages y (by simp)), rfl⟩
    · have hmore : ¬ (x.2.pageNos.drop (k + 1)).isEmpty = true := by
        rw [List.isEmpty_iff, List.drop_eq_nil_iff]
        simp only [StagedBody.pageNos, List.length_map]
        omega
      rw [if_neg hmore]
      exact ⟨before, x :: rest, rfl, hdone, k + 1, by omega, rfl⟩

theorem bodiesToDigest_pages {intents : List Intent} {x : Tag × StagedBody} (h : x ∈ bodiesToDigest intents) : x.2.pages ≠ [] := by
  obtain ⟨i, -, hx⟩ := List.mem_filterMap.mp h
  split at hx
  · cases hx
  · split at hx
    · cases hx
    next hne =>
      cases hx
      exact fun he => hne (List.isEmpty_iff.mpr he)

theorem PagesOk.digestPage (h : PagesOk s) {c : Commit} (he : s.engine = .digesting c) :
    PagesOk { s with engine := .digesting (c.digestPage s.pool) } := by
  refine h.of_eq rfl rfl (fun _ => rfl) fun c' hc' => ?_
  cases hc'
  have hport : (c.digestPage s.pool).port = c.port := by
    simp only [Commit.digestPage]
    split
    · rfl
    · split
      · rfl
      · split <;> rfl
  rw [hport]
  refine digestAt_digestPage (h.digested c he) (fun x hx => ?_) fun x hx => bodiesToDigest_pages hx
  obtain ⟨i, hi, -, hb⟩ := mem_bodiesToDigest hx
  exact h.bodyLists c.port x.2 (mem_stagedBodies.mpr ⟨i, hi, hb⟩)

/-- TAKE begins with nothing digested (R105). -/
theorem PagesOk.reserveTxn (h : PagesOk s) (rest : List Port) : PagesOk (reserveTxn p (takenState p rest s)) := by
  have hintents : ∀ q, ((takenState p rest s).txns.get q).intents = (s.txns.get q).intents :=
    setTxn_forall (s := { s with commitQueue := rest }) (Q := fun q y => y.intents = (s.txns.get q).intents) rfl fun _ _ => rfl
  refine h.of_eq rfl rfl hintents fun c hc => ?_
  cases hc
  have hself : ((takenState p rest s).txns.get p).intents = (s.txns.get p).intents := hintents p
  refine ⟨[], bodiesToDigest (s.txns.get p).intents, rfl, rfl, ?_⟩
  dsimp only
  rw [hself, digestsOf_eq_bodiesToDigest s.pool]
  cases hb : bodiesToDigest (s.txns.get p).intents with
  | nil => rfl
  | cons x others =>
    exact ⟨0, List.length_pos_iff.mpr (bodiesToDigest_pages (hb ▸ List.mem_cons_self)), rfl⟩

end Sys2Proof.Machine
end

section
/-! SUPPORT. Page conservation under PUBLISH, which hands the staged lists over, and under the load's installation; every
command, and the statement. -/

namespace Sys2Proof.Machine

variable {s t : State} {p : Port}

/-! ### Staged lists handed over (R34) -/

/-- The pool after the lists of a commit have been handed over: its port owns no staged page any more. -/
theorem handOverAll_fields (p : Port) (intents : List Intent) (pool : Pool) :
    (handOverAll p pool intents).bytes = pool.bytes ∧ (handOverAll p pool intents).refs = pool.refs
      ∧ (handOverAll p pool intents).free = pool.free
      ∧ (handOverAll p pool intents).stagedOwned.get p = pool.stagedOwned.get p - ownedSum intents
      ∧ ∀ q, q ≠ p → (handOverAll p pool intents).stagedOwned.get q = pool.stagedOwned.get q := by
  induction intents generalizing pool with
  | nil => exact ⟨rfl, rfl, rfl, rfl, fun _ _ => rfl⟩
  | cons i rest ih =>
    obtain ⟨hbytes, hrefs, hfree, hown, hrest⟩ := ih (handOverOp p i.op pool)
    have hstep : (handOverOp p i.op pool).bytes = pool.bytes ∧ (handOverOp p i.op pool).refs = pool.refs
        ∧ (handOverOp p i.op pool).free = pool.free
        ∧ (handOverOp p i.op pool).stagedOwned.get p = pool.stagedOwned.get p - i.op.ownedCount
        ∧ ∀ q, q ≠ p → (handOverOp p i.op pool).stagedOwned.get q = pool.stagedOwned.get q := by
      cases hb : i.op.body? with
      | none =>
        have hsame : handOverOp p i.op pool = pool := by simp only [handOverOp, hb]
        rw [hsame, IntentOp.ownedCount_of_none hb]
        exact ⟨rfl, rfl, rfl, rfl, fun _ _ => rfl⟩
      | some b =>
        have hsame : handOverOp p i.op pool = pool.handOver p b := by simp only [handOverOp, hb]
        rw [hsame, IntentOp.ownedCount_of_some hb]
        exact ⟨rfl, rfl, rfl, PortMap.get_set_self .., fun q hq => PortMap.get_set_of_ne _ _ hq⟩
    obtain ⟨hb1, hr1, hf1, ho1, hq1⟩ := hstep
    have hcons : handOverAll p pool (i :: rest) = handOverAll p (handOverOp p i.op pool) rest := rfl
    rw [hcons, ownedSum_cons]
    refine ⟨hbytes.trans hb1, hrefs.trans hr1, hfree.trans hf1, ?_, fun q hq => (hrest q hq).trans (hq1 q hq)⟩
    rw [hown, ho1]
    omega

theorem handOverAll_holds {pool : Pool} {held : PageNo → Nat} (h : pool.Holds held) (p : Port) (intents : List Intent) :
    (handOverAll p pool intents).Holds held := by
  obtain ⟨hbytes, hrefs, hfree, -, -⟩ := handOverAll_fields p intents pool
  have href : ∀ m, (handOverAll p pool intents).ref m = pool.ref m := fun m => by rw [Pool.ref, hrefs, Pool.ref]
  refine ⟨⟨hbytes.symm ▸ h.wf.bytes, hrefs.symm ▸ h.wf.refs⟩, fun m => (href m).trans (h.refs m), ?_, ?_, h.inPool⟩
  · rw [hfree]
    exact h.freePages
  · rw [hfree]
    exact h.freeOnce

/-! ### The versions that a publish installs (R110 to R112) -/

theorem installedContent_pages (dir : List DirSlot) (done : List (Tag × Crc)) (i : Intent) (gen : Gen) :
    (⟨gen, installedContent dir done i⟩ : Version).pages = i.op.pageNos := by
  obtain ⟨tag, op⟩ := i
  cases op with
  | created a as =>
    cases as with
    | blob body => cases body <;> rfl
    | counter d => rfl
  | written base body => rfl
  | added base d => rfl
  | deleted base => rfl

theorem versionCount_install (dir : List DirSlot) (tag : Tag) (v : Version) (m : PageNo) :
    versionCount (install dir tag v) m = versionCount dir m + v.pages.count m := by
  induction dir with
  | nil => rw [install, versionCount_cons]; simp [versionCount]
  | cons d rest ih =>
    rw [install]
    split
    · rw [versionCount_cons]
      simp only [List.flatMap_cons, List.flatMap_nil, List.append_nil]
      omega
    · split
      · rw [versionCount_cons, versionCount_cons, List.flatMap_cons, List.count_append]
        omega
      · rw [versionCount_cons, versionCount_cons, ih]
        omega

theorem versionCount_installAll (gen : Gen) (done : List (Tag × Crc)) (dir : List DirSlot) (intents : List Intent) (m : PageNo) :
    versionCount (installAll gen done dir intents) m = versionCount dir m + stagedCount intents m := by
  induction intents generalizing dir with
  | nil => rfl
  | cons i rest ih =>
    rw [installAll_cons, ih, versionCount_install, installedContent_pages, stagedCount_cons]
    omega

/-- A version after the installation was there before, or is an intent's. -/
theorem version_of_installAll {gen : Gen} {done : List (Tag × Crc)} {dir : List DirSlot} {intents : List Intent}
    (hdir : (dir.map DirSlot.tag).Pairwise (· < ·)) (hnodup : (intents.map Intent.tag).Nodup) {d : DirSlot}
    (hd : d ∈ installAll gen done dir intents) {v : Version} (hv : v ∈ d.chain) :
    (∃ d' ∈ dir, d'.tag = d.tag ∧ v ∈ d'.chain)
      ∨ ∃ i ∈ intents, i.tag = d.tag ∧ v = ⟨gen, installedContent dir done i⟩ := by
  have hchain := chainOf_of_mem (installAll_tagsRise hdir) hd
  have hold : v ∈ chainOf dir d.tag → ∃ d' ∈ dir, d'.tag = d.tag ∧ v ∈ d'.chain := fun hv => by
    obtain ⟨d', hd', ht, hc⟩ := exists_slot_of_chainOf_ne_nil (List.ne_nil_of_mem hv)
    exact ⟨d', hd', ht, hc ▸ hv⟩
  rw [← hchain] at hv
  by_cases ht : d.tag ∈ intents.map Intent.tag
  · obtain ⟨i, hi, htag⟩ := List.mem_map.mp ht
    rw [← htag, chainOf_installAll hdir hnodup hi] at hv
    rcases List.mem_cons.mp hv with rfl | hv
    · exact .inr ⟨i, hi, htag, rfl⟩
    · exact .inl (hold (htag ▸ hv))
  · rw [chainOf_installAll_of_not_mem ht] at hv
    exact .inl (hold hv)

theorem be32_getD (x : BitVec 32) : (List.range 4).map (fun k => (be32 x).getD k 0#8) = be32 x := rfl

/-- A counter's crc is that of its body (R7). -/
theorem counterContent_body (gen : Gen) (attrs : Attrs) (value : BitVec 32) (pool : Pool) :
    (⟨gen, counterContent attrs value⟩ : Version).crc = crc16 ((⟨gen, counterContent attrs value⟩ : Version).body pool) := rfl

theorem blob_body (gen : Gen) (attrs : Attrs) (length : Nat) (pages : List PageNo) (crc : Crc) (pool : Pool) :
    (⟨gen, .blob attrs length pages crc⟩ : Version).body pool = pool.body pages length := rfl

/-- The digest that PUBLISH finds for a staged body is the CRC of its bytes (R105). -/
theorem digestOf_body {pool : Pool} {intents : List Intent} (hnodup : (intents.map Intent.tag).Nodup) {c : Commit}
    (h : digestAt pool (bodiesToDigest intents) c) (htodo : c.todo = []) {i : Intent} (hi : i ∈ intents) {b : StagedBody}
    (hb : i.op.body? = some b) (hlist : b.listOk) : digestOf c.done i.tag = crc16 (pool.body b.pageNos b.length) := by
  have hdone : c.done = (bodiesToDigest intents).map (fun x => (x.1, crc16 (pool.body x.2.pageNos x.2.length))) := by
    obtain ⟨before, behind, hsplit, hdone, hrest⟩ := h
    cases behind with
    | nil => rw [hsplit, List.append_nil, hdone]
    | cons x rest =>
      obtain ⟨k, -, hk⟩ := hrest
      rw [htodo] at hk
      cases hk
  rw [hdone, digestOf_eq_lookup]
  clear h hdone
  induction intents with
  | nil => cases hi
  | cons j rest ih =>
    rw [List.map_cons, List.nodup_cons] at hnodup
    obtain ⟨hj, hrest⟩ := hnodup
    have hcons : bodiesToDigest (j :: rest) = bodiesToDigest [j] ++ bodiesToDigest rest :=
      List.filterMap_append (l := [j]) (l' := rest)
    have hnone : ∀ tag, tag ∉ rest.map Intent.tag → ((bodiesToDigest rest).map
        (fun x => (x.1, crc16 (pool.body x.2.pageNos x.2.length)))).lookup tag = none := by
      intro tag ht
      rw [List.lookup_eq_none_iff]
      rintro x hx
      obtain ⟨y, hy, rfl⟩ := List.mem_map.mp hx
      obtain ⟨k, hk, hkt, -⟩ := mem_bodiesToDigest hy
      simp only [bne_iff_ne, ne_eq]
      rintro rfl
      exact ht (hkt ▸ List.mem_map_of_mem hk)
    rw [hcons, List.map_append, List.lookup_append]
    rcases List.mem_cons.mp hi with rfl | hi'
    · cases hp : b.pages with
      | nil =>
        have hzero : b.length = 0 := by
          obtain ⟨-, hl, -⟩ := (StagedBody.listOk_iff b).mp hlist
          rw [hp] at hl
          have hl : 0 = (b.length + 31) / 32 := hl
          omega
        have hfirst : bodiesToDigest [i] = [] := by simp [bodiesToDigest, hb, hp]
        rw [hfirst, hnone i.tag hj, hzero]
        rfl
      | cons y ys =>
        have hfirst : bodiesToDigest [i] = [(i.tag, b)] := by simp [bodiesToDigest, hb, hp]
        rw [hfirst]
        simp
    · have hne : i.tag ≠ j.tag := fun e => hj (e ▸ List.mem_map_of_mem hi')
      have hfirst : ((bodiesToDigest [j]).map (fun x => (x.1, crc16 (pool.body x.2.pageNos x.2.length)))).lookup i.tag = none := by
        rw [List.lookup_eq_none_iff]
        rintro x hx
        obtain ⟨y, hy, rfl⟩ := List.mem_map.mp hx
        obtain ⟨k, hk, hkt, -⟩ := mem_bodiesToDigest hy
        obtain rfl := List.mem_singleton.mp hk
        simpa only [bne_iff_ne, ne_eq, ← hkt] using hne
      rw [hfirst, Option.none_or]
      exact ih hrest hi'

/-- The state on which the retirement of a publish runs, its committer's context ended. -/
def handedOver (c : Commit) (s : State) : State :=
  { installedState c s with engine := .idle }.setTxn c.port ⟨.none, [], none, .none, .none⟩

theorem handedOver_intents (c : Commit) (s : State) {q : Port} {i : Intent} (hi : i ∈ ((handedOver c s).txns.get q).intents) :
    q ≠ c.port ∧ i ∈ (s.txns.get q).intents := by
  by_cases hq : q = c.port
  · subst hq
    simp only [handedOver, State.setTxn_txns, PortMap.get_set_self] at hi
    cases hi
  · simp only [handedOver, State.setTxn_txns, PortMap.get_set_of_ne _ _ hq] at hi
    exact ⟨hq, hi⟩

/-- PUBLISH makes versions of the committer's staged lists: every page keeps its holders and its bytes. -/
theorem PagesOk.handedOver (h : PagesOk s) (hm : MemoriesOk s) (hc : ContextsOk s) (hst : StoreOk s) {c : Commit}
    (he : s.engine = .digesting c) (htodo : c.todo = []) : PagesOk (handedOver c s) := by
  obtain ⟨hbytes, -, -, hown, hrest⟩ := handOverAll_fields c.port (s.txns.get c.port).intents s.pool
  have hnodup := (hc.contexts c.port).tagsDiffer
  have hread : ∀ pages length, (Machine.handedOver c s).pool.body pages length = s.pool.body pages length := fun pages length =>
    Pool.body_of_bytes hbytes pages length
  have hbyte : ∀ pages k, (Machine.handedOver c s).pool.bodyByte pages k = s.pool.bodyByte pages k := fun pages k =>
    Pool.bodyByte_congr (fun n _ j _ => by
      show cellRead _ (handOverAll c.port s.pool (s.txns.get c.port).intents).bytes _ = _
      rw [hbytes]
      rfl) k
  have hheld : ∀ m, heldCount (Machine.handedOver c s) m = heldCount s m := fun m => by
    have hset := heldCount_setTxn (s := { installedState c s with engine := .idle }) (p := c.port) ⟨.none, [], none, .none, .none⟩
      (installedState c s).pool m
    have hversions := versionCount_installAll (s.g + 1#32) c.done s.directory (s.txns.get c.port).intents m
    have hset : heldCount (Machine.handedOver c s) m + stagedCount (s.txns.get c.port).intents m
        = versionCount (installAll (s.g + 1#32) c.done s.directory (s.txns.get c.port).intents) m
          + portSum (fun q => stagedCount (s.txns.get q).intents m) + 0 := hset
    have hold : heldCount s m = versionCount s.directory m + portSum (fun q => stagedCount (s.txns.get q).intents m) := rfl
    omega
  have holds := (handOverAll_holds (h.holds hm) c.port (s.txns.get c.port).intents).congr hheld
  have hversion : ∀ d ∈ (Machine.handedOver c s).directory, ∀ v ∈ d.chain, (∃ d' ∈ s.directory, d'.tag = d.tag ∧ v ∈ d'.chain)
      ∨ ∃ i ∈ (s.txns.get c.port).intents, i.tag = d.tag ∧ v = ⟨s.g + 1#32, installedContent s.directory c.done i⟩ :=
    fun d hd v hv => version_of_installAll hst.tagsRise hnodup hd hv
  have hbody : ∀ q b, b ∈ stagedBodies q (Machine.handedOver c s) → b ∈ stagedBodies q s := fun q b hb => by
    obtain ⟨i, hi, hib⟩ := mem_stagedBodies.mp hb
    exact mem_stagedBodies.mpr ⟨i, (handedOver_intents c s hi).2, hib⟩
  have hlists : ∀ y ∈ pageLists (Machine.handedOver c s), y ∈ pageLists s ∨ y.2 = [] := by
    intro y hy
    rcases mem_pageLists.mp hy with ⟨d, hd, v, hv, rfl⟩ | ⟨q, i, hi, b, hb, rfl⟩
    · rcases hversion d hd v hv with ⟨d', hd', ht, hv'⟩ | ⟨i, hi, ht, rfl⟩
      · exact .inl (ht ▸ version_mem_pageLists hd' hv')
      · rw [installedContent_pages, ← ht]
        cases hb : i.op.body? with
        | none => exact .inr (IntentOp.pageNos_of_none hb)
        | some b =>
          rw [IntentOp.pageNos_of_some hb]
          exact .inl (body_mem_pageLists hi hb)
    · exact .inl (body_mem_pageLists (handedOver_intents c s hi).2 hb)
  -- the version of an intent with a body, or of one without
  have hnew : ∀ i ∈ (s.txns.get c.port).intents, (∃ b attrs crc, i.op.body? = some b ∧ b ∈ stagedBodies c.port s
        ∧ installedContent s.directory c.done i = .blob attrs b.length b.pageNos crc ∧ crc = crc16 (s.pool.body b.pageNos b.length))
      ∨ (∃ attrs, installedContent s.directory c.done i = .blob attrs 0 [] crcStart)
      ∨ (∃ attrs value, installedContent s.directory c.done i = counterContent attrs value)
      ∨ installedContent s.directory c.done i = .tombstone := by
    intro i hi
    have hdig : ∀ {b}, i.op.body? = some b → b ∈ stagedBodies c.port s
        ∧ digestOf c.done i.tag = crc16 (s.pool.body b.pageNos b.length) := fun {b} hb => by
      have hmem := mem_stagedBodies.mpr ⟨i, hi, hb⟩
      exact ⟨hmem, digestOf_body hnodup (h.digested c he) htodo hi hb (h.bodyLists c.port b hmem)⟩
    obtain ⟨tag, op⟩ := i
    cases op with
    | created a as =>
      cases as with
      | blob body =>
        cases body with
        | none => exact .inr (.inl ⟨a, rfl⟩)
        | some b =>
          obtain ⟨hmem, hcrc⟩ := hdig (b := b) rfl
          exact .inl ⟨b, a, _, rfl, hmem, rfl, hcrc⟩
      | counter d => exact .inr (.inr (.inl ⟨a, _, rfl⟩))
    | written base b =>
      obtain ⟨hmem, hcrc⟩ := hdig (b := b) rfl
      exact .inl ⟨b, _, _, rfl, hmem, rfl, hcrc⟩
    | added base d => exact .inr (.inr (.inl ⟨_, _, rfl⟩))
    | deleted base => exact .inr (.inr (.inr rfl))
  constructor
  case counts => exact fun n => (holds.refs n).trans (heldCount_eq _ n)
  case freePages => exact fun n => (holds.freePages n).trans (by rw [← holds.refs]; rfl)
  case freeOnce => exact holds.freeOnce
  case inPool => exact fun n hn => (holds.refs n).trans (holds.inPool n hn)
  case versionLists =>
    intro d hd v hv
    rcases hversion d hd v hv with ⟨d', hd', -, hv'⟩ | ⟨i, hi, -, rfl⟩
    · exact h.versionLists d' hd' v hv'
    · rcases hnew i hi with ⟨b, attrs, crc, -, hmem, hcontent, -⟩ | ⟨attrs, hcontent⟩ | ⟨attrs, value, hcontent⟩ | hcontent
      · rw [hcontent]
        obtain ⟨hmax, hlength, hpages⟩ := h.bodyLists c.port b hmem
        exact ⟨hmax, (List.length_map _).trans hlength, hpages⟩
      · rw [hcontent]
        exact ⟨Nat.zero_le _, (by decide : 0 = pagesFor 0), List.nodup_nil⟩
      · rw [hcontent]
        trivial
      · rw [hcontent]
        trivial
  case bodyLists => exact fun q b hb => h.bodyLists q b (hbody q b hb)
  case ownedOnce =>
    intro q b hb x hx hxo
    refine (holds.refs x.page).trans ((hheld x.page).trans ?_)
    rw [← (h.holds hm).refs]
    exact h.ownedOnce q b (hbody q b hb) x hx hxo
  case stagedOwned =>
    intro q
    rw [ownedSum_eq]
    have hold := h.stagedOwned_eq q
    by_cases hq : q = c.port
    · subst hq
      simp only [Machine.handedOver, State.setTxn_txns, PortMap.get_set_self]
      refine hown.trans ?_
      rw [hold, Nat.sub_self]
      rfl
    · simp only [Machine.handedOver, State.setTxn_txns, PortMap.get_set_of_ne _ _ hq]
      exact (hrest q hq).trans hold
  case versionTails =>
    intro d hd v hv hne k h1 h2
    rw [hbyte]
    rcases hversion d hd v hv with ⟨d', hd', -, hv'⟩ | ⟨i, hi, -, rfl⟩
    · exact h.versionTails d' hd' v hv' hne k h1 h2
    · rcases hnew i hi with ⟨b, attrs, crc, -, hmem, hcontent, -⟩ | ⟨attrs, hcontent⟩ | ⟨attrs, value, hcontent⟩ | hcontent
      · rw [hcontent] at h1 h2 ⊢
        exact h.bodyTails c.port b hmem k h1 h2
      all_goals
        rw [hcontent] at hne
        exact absurd rfl hne
  case bodyTails => exact fun q b hb k h1 h2 => by rw [hbyte]; exact h.bodyTails q b (hbody q b hb) k h1 h2
  case oneRecord =>
    intro y hy z hz n hny hnz
    rcases hlists y hy with hys | hnil
    · rcases hlists z hz with hzs | hnil
      · exact h.oneRecord y hys z hzs n hny hnz
      · rw [hnil] at hnz
        cases hnz
    · rw [hnil] at hny
      cases hny
  case quota =>
    intro q
    by_cases hq : q = c.port
    · subst hq
      exact (hown.trans_le (Nat.sub_le _ _)).trans (h.quota c.port)
    · exact (hrest q hq).trans_le (h.quota q)
  case crcs =>
    intro d hd v hv hlive
    rcases hversion d hd v hv with ⟨d', hd', -, hv'⟩ | ⟨i, hi, -, rfl⟩
    · refine (h.crcs d' hd' v hv' hlive).trans (congrArg crc16 (Version.body_congr fun m _ j _ => ?_).symm)
      show cellRead _ (handOverAll c.port s.pool (s.txns.get c.port).intents).bytes _ = _
      rw [hbytes]
      rfl
    · rcases hnew i hi with ⟨b, attrs, crc, -, hmem, hcontent, hcrc⟩ | ⟨attrs, hcontent⟩ | ⟨attrs, value, hcontent⟩ | hcontent
      · rw [hcontent, blob_body, hread]
        exact hcrc
      · rw [hcontent]
        rfl
      · rw [hcontent]
        exact counterContent_body ..
      · rw [hcontent] at hlive
        cases hlive
  case digested => exact fun c' hc' => by cases hc'

theorem PagesOk.publishCommit (h : PagesOk s) (hm : MemoriesOk s) (hc : ContextsOk s) (hst : StoreOk s) {c : Commit}
    (he : s.engine = .digesting c) (htodo : c.todo = []) : PagesOk (publishCommit c s) := by
  have hhanded := h.handedOver hm hc hst he htodo
  have hmem : MemoriesOk (Machine.handedOver c s) := by
    have hholds := handOverAll_holds (h.holds hm) c.port (s.txns.get c.port).intents
    exact hm.of_pool hholds.wf rfl
  have hretired := hhanded.retireBy hmem (check := publishCheck (holdingGens (installedState c s))
    ((s.txns.get c.port).intents.map Intent.tag)) (publishCheck_retires_installed hst hc he _ _)
  obtain ⟨notes, heq⟩ := publishCommit_eq c s
  rw [heq]
  refine hretired.of_eq rfl rfl (fun q => ?_) nofun
  by_cases hq : q = c.port
  · subst hq
    simp only [State.setTxn_txns, PortMap.get_set_self]
    show [] = ((Machine.handedOver c s).txns.get c.port).intents
    simp only [Machine.handedOver, State.setTxn_txns, PortMap.get_set_self]
  · simp only [State.setTxn_txns, PortMap.get_set_of_ne _ _ hq]
    show (s.txns.get q).intents = ((Machine.handedOver c s).txns.get q).intents
    simp only [Machine.handedOver, State.setTxn_txns, PortMap.get_set_of_ne _ _ hq]
    rfl

end Sys2Proof.Machine
end

section
/-! SUPPORT. Page conservation under the load's installation and under every command; the statement. -/

namespace Sys2Proof.Machine

variable {s t : State} {p : Port}

/-! ### The load's installation (R36, R148, R149) -/

theorem be32_fromBe {bs : List Byte} (h : bs.length = 4) : be32 (BitVec.ofNat 32 (fromBe bs)) = bs := by
  obtain ⟨a, b, c, d, rfl⟩ : ∃ a b c d, bs = [a, b, c, d] := by
    match bs, h with
    | [a, b, c, d], _ => exact ⟨a, b, c, d, rfl⟩
  have ha := a.isLt
  have hb := b.isLt
  have hc := c.isLt
  have hd := d.isLt
  have hvalue : fromBe [a, b, c, d] = ((a.toNat * 256 + b.toNat) * 256 + c.toNat) * 256 + d.toNat := by
    simp [fromBe]
  have hbyte : ∀ (x : Byte) (k : Nat), ((((a.toNat * 256 + b.toNat) * 256 + c.toNat) * 256 + d.toNat) / 2 ^ k) % 256 = x.toNat →
      (BitVec.ofNat 32 (fromBe [a, b, c, d])).extractLsb' k 8 = x := fun x k hx => by
    have hlt : fromBe [a, b, c, d] < 2 ^ 32 := by omega
    refine BitVec.eq_of_toNat_eq ?_
    rw [BitVec.extractLsb'_toNat, BitVec.toNat_ofNat, Nat.mod_eq_of_lt hlt, hvalue, Nat.shiftRight_eq_div_pow]
    exact hx
  simp only [be32, List.cons.injEq, and_true]
  exact ⟨hbyte a 24 (by omega), hbyte b 16 (by omega), hbyte c 8 (by omega), hbyte d 0 (by omega)⟩

/-- The loader's pages are in no list before, and in the new version's list after. -/
theorem Pool.Holds.loaded {pool pool' : Pool} {held : PageNo → Nat} (h : pool.Holds held) {k : Nat} {bs : List Byte}
    {ns : List PageNo} (hload : loadPages k bs pool = some (ns, pool')) (hl : pool.Loaded k bs pool')
    (hns : ns = pool.free.take k) : pool'.Holds (fun m => held m + ns.count m) := by
  have hnodup : (pool.free.take k).Nodup := h.freeOnce.sublist (List.take_sublist ..)
  have hzero : ∀ m ∈ pool.free.take k, held m = 0 := fun m hm => ((h.freePages m).mp (List.mem_of_mem_take hm)).2
  subst hns
  have hcount : ∀ m, (pool.free.take k).count m = if m ∈ pool.free.take k then 1 else 0 := fun m => by
    split
    next hm => exact List.count_eq_one_of_mem hnodup hm
    next hm => exact List.count_eq_zero_of_not_mem hm
  refine ⟨h.wf.loadPages hload, fun m => ?_, fun n => ?_, ?_, fun n hn => ?_⟩
  · rw [hl.refs h.wf.refs, hcount, h.refs]
    split
    next hm => rw [hzero m hm]
    next => rfl
  · have hsplit : n ∈ pool.free ↔ n ∈ pool.free.take k ∨ n ∈ pool.free.drop k := by
      rw [← List.mem_append, List.take_append_drop]
    have hdisjoint : n ∈ pool.free.take k → n ∉ pool.free.drop k := fun h1 h2 =>
      List.disjoint_take_drop h.freeOnce (Nat.le_refl k) h1 h2
    have hfree := h.freePages n
    rw [hl.free, hcount]
    by_cases hm : n ∈ pool.free.take k
    · rw [if_pos hm]
      exact iff_of_false (hdisjoint hm) (by rintro ⟨-, h0⟩; cases h0)
    · rw [if_neg hm, Nat.add_zero, ← hfree, hsplit, or_iff_right hm]
  · rw [hl.free]
    exact h.freeOnce.sublist (List.drop_sublist ..)
  · rw [hcount, h.inPool n hn, if_neg fun hm => ?_]
    exact absurd ((h.freePages n).mp (List.mem_of_mem_take hm)).1 (Nat.not_lt.mpr hn)

/-- A version with fresh pages becomes the only one of a new chain. -/
theorem PagesOk.installed (h : PagesOk s) (hm : MemoriesOk s) (hdir : (s.directory.map DirSlot.tag).Pairwise (· < ·)) {tag : Tag}
    {v : Version} {pool : Pool} (hchain : chainOf s.directory tag = [])
    (holds : pool.Holds (fun m => heldCount s m + v.pages.count m)) (fresh : ∀ m ∈ v.pages, heldCount s m = 0)
    (kept : ∀ m, heldCount s m ≠ 0 → ∀ j, j < 32 → pool.pageByte m j = s.pool.pageByte m j)
    (owned : pool.stagedOwned = s.pool.stagedOwned) (listOk : v.listOk)
    (tail : v.pages ≠ [] → tailClear pool v.length v.pages) (crc : v.crc = crc16 (v.body pool)) (idle : s.engine = .idle) :
    PagesOk { s with directory := install s.directory tag v, pool := pool } := by
  have hheld : ∀ m, heldCount { s with directory := install s.directory tag v, pool := pool } m
      = heldCount s m + v.pages.count m := fun m => by
    show versionCount (install s.directory tag v) m + portSum (fun q => stagedCount (s.txns.get q).intents m)
      = versionCount s.directory m + portSum (fun q => stagedCount (s.txns.get q).intents m) + v.pages.count m
    rw [versionCount_install]
    omega
  have holds := holds.congr hheld
  have hversion : ∀ d ∈ install s.directory tag v, ∀ w ∈ d.chain, (d ∈ s.directory) ∨ (d.tag = tag ∧ w = v) := by
    intro d hd w hw
    have hc := chainOf_of_mem (install_tagsRise hdir) hd
    rcases mem_install hd with hd | ⟨ht, -⟩
    · exact .inl hd
    · rw [ht, chainOf_install_of_nil hchain] at hc
      rw [← hc] at hw
      exact .inr ⟨ht, List.mem_singleton.mp hw⟩
  have hvheld : ∀ d ∈ s.directory, ∀ w ∈ d.chain, ∀ m ∈ w.pages, heldCount s m ≠ 0 := fun d hd w hw m hm => by
    have := versionCount_pos hd hw hm
    rw [heldCount]
    omega
  have hbheld : ∀ q b, b ∈ stagedBodies q s → ∀ m ∈ b.pageNos, heldCount s m ≠ 0 := fun q b hb m hm => by
    obtain ⟨i, hi, hib⟩ := mem_stagedBodies.mp hb
    exact (heldCount_body hi hib hm).ne'
  have hlists : ∀ y ∈ pageLists { s with directory := install s.directory tag v, pool := pool },
      y = (tag, v.pages) ∨ (y ∈ pageLists s ∧ ∀ n ∈ y.2, heldCount s n ≠ 0) := by
    intro y hy
    rcases mem_pageLists.mp hy with ⟨d, hd, w, hw, rfl⟩ | ⟨q, i, hi, b, hb, rfl⟩
    · rcases hversion d hd w hw with hd | ⟨rfl, rfl⟩
      · exact .inr ⟨version_mem_pageLists hd hw, hvheld d hd w hw⟩
      · exact .inl rfl
    · exact .inr ⟨body_mem_pageLists (s := s) hi hb, fun n hn => (heldCount_body (s := s) hi hb hn).ne'⟩
  constructor
  case counts => exact fun n => (holds.refs n).trans (heldCount_eq _ n)
  case freePages => exact fun n => (holds.freePages n).trans (by rw [← holds.refs])
  case freeOnce => exact holds.freeOnce
  case inPool => exact fun n hn => (holds.refs n).trans (holds.inPool n hn)
  case versionLists =>
    intro d hd w hw
    rcases hversion d hd w hw with hd | ⟨-, rfl⟩
    · exact h.versionLists d hd w hw
    · exact listOk
  case bodyLists => exact h.bodyLists
  case ownedOnce =>
    intro q b hb x hx hxo
    have hone := h.ownedOnce q b hb x hx hxo
    have hx' := hbheld q b hb x.page (List.mem_map_of_mem hx)
    refine (holds.refs x.page).trans ((hheld x.page).trans ?_)
    rw [List.count_eq_zero_of_not_mem fun hin => hx' (fresh _ hin), ← (h.holds hm).refs, hone]
  case stagedOwned =>
    intro q
    show pool.stagedOwned.get q = _
    rw [owned]
    exact h.stagedOwned q
  case versionTails =>
    intro d hd w hw hne
    rcases hversion d hd w hw with hd | ⟨-, rfl⟩
    · intro k h1 h2
      exact (Pool.bodyByte_congr (fun m hm j hj => kept m (hvheld d hd w hw m hm) j hj) k).trans
        (h.versionTails d hd w hw hne k h1 h2)
    · exact tail hne
  case bodyTails =>
    intro q b hb k h1 h2
    exact (Pool.bodyByte_congr (fun m hm j hj => kept m (hbheld q b hb m hm) j hj) k).trans (h.bodyTails q b hb k h1 h2)
  case oneRecord =>
    intro y hy z hz n hny hnz
    rcases hlists y hy with rfl | ⟨hys, hyh⟩
    · rcases hlists z hz with rfl | ⟨hzs, hzh⟩
      · rfl
      · exact absurd (fresh n hny) (hzh n hnz)
    · rcases hlists z hz with rfl | ⟨hzs, hzh⟩
      · exact absurd (fresh n hnz) (hyh n hny)
      · exact h.oneRecord y hys z hzs n hny hnz
  case quota =>
    intro q
    show pool.stagedOwned.get q ≤ _
    rw [owned]
    exact h.quota q
  case crcs =>
    intro d hd w hw hlive
    rcases hversion d hd w hw with hd | ⟨-, rfl⟩
    · exact (h.crcs d hd w hw hlive).trans
        (congrArg crc16 (Version.body_congr fun m hm j hj => kept m (hvheld d hd w hw m hm) j hj).symm)
    · exact crc
  case digested =>
    intro c hc
    have hc : s.engine = .digesting c := hc
    rw [idle] at hc
    cases hc

theorem PagesOk.installEntry (h : PagesOk s) (hm : MemoriesOk s) (hdir : (s.directory.map DirSlot.tag).Pairwise (· < ·))
    (idle : s.engine = .idle) {f : Flash} {i : ImageSlot} {offset : Nat} {e : LoadEntry} (hread : readEntry f i offset = some e)
    (hi : installEntry e s = some t) : PagesOk t := by
  obtain ⟨-, -, hchain, content, pool, hcontent, rfl⟩ := installEntry_inv hi
  have hentry := EntryRead.of_readEntry hread
  have hlen := hentry.body_length
  have hholds := h.holds hm
  cases hk : e.kind with
  | counter =>
    rw [loadContent_of_counter hk] at hcontent
    cases hcontent
    refine h.installed hm hdir hchain hholds (fun m hm => absurd hm List.not_mem_nil) (fun _ _ _ _ => rfl) rfl trivial
      (fun hne => absurd rfl hne) ?_ idle
    have hfour : e.body.length = 4 := hlen.trans (hentry.counterLength hk)
    have hbody : (⟨1#32, .counter e.attrs (BitVec.ofNat 32 (fromBe e.body)) e.crc⟩ : Version).body s.pool = e.body := by
      refine (be32_getD _).trans (be32_fromBe hfour)
    rw [hbody]
    exact hentry.crcOk.symm
  | blob =>
    by_cases hroom : pagesFor e.length ≤ s.pool.free.length
    · obtain ⟨pool1, hload, hloaded⟩ := loadPages_of_room (pool := s.pool) (bs := e.body) (k := pagesFor e.length) hroom
      rw [loadContent_of_pages hk hload] at hcontent
      cases hcontent
      have hfor := pagesFor_eq e.length
      obtain ⟨hbody, htail⟩ := hloaded.body_and_tail hm.pages h.freeOnce (by omega) hroom
      rw [hlen] at hbody htail
      have hfree : ∀ m ∈ s.pool.free.take (pagesFor e.length), heldCount s m = 0 := fun m hm =>
        ((hholds.freePages m).mp (List.mem_of_mem_take hm)).2
      refine h.installed hm hdir hchain (hholds.loaded hload hloaded rfl) hfree
        (fun m hne j hj => hloaded.others hm.pages m (fun hin => hne (hfree m hin)) j hj) hloaded.stagedOwned
        ⟨hentry.blobLength hk, ?_, h.freeOnce.sublist (List.take_sublist ..)⟩ (fun _ => htail) ?_ idle
      · rw [List.length_take]
        omega
      · rw [blob_body, hbody]
        exact hentry.crcOk.symm
    · rw [loadContent_of_short hk (loadPages_of_short (Nat.not_le.mp hroom))] at hcontent
      cases hcontent

/-! ### Every command -/

/-- What the pages' invariant rests on. -/
structure Grounds (s : State) : Prop where
  memories : MemoriesOk s
  contexts : ContextsOk s
  store : StoreOk s

theorem PagesOk.release (h : PagesOk s) (hm : MemoriesOk s) (hst : StoreOk s) {u : State} (pool : u.pool = s.pool)
    (dir : u.directory = s.directory) (txns : u.txns = s.txns) (engine : u.engine = s.engine) (flash : u.flash = s.flash) :
    PagesOk (retireOnRelease u) :=
  (h.of_store (t := u) pool dir txns engine).retireBy (hm.of_eq pool flash)
    fun d hd => releaseCheck_retires (holdingGens u) (hst.occupied d (dir ▸ hd))

theorem PagesOk.endCheckpoint (h : PagesOk s) (hm : MemoriesOk s) (hst : StoreOk s) (r : ImageResult) : PagesOk (endCheckpoint r s) :=
  (h.release hm hst (u := { s with image := { s.image with checkpoint := none, op := .none }, slot4 := none })
    rfl rfl rfl rfl rfl).of_store rfl rfl rfl rfl

theorem takesRequests_grounds : TakesRequests Grounds where
  iface u p x h := ⟨h.memories.of_eq rfl rfl, (takesRequests_store.iface u p x ⟨h.contexts, h.store⟩).1,
    (takesRequests_store.iface u p x ⟨h.contexts, h.store⟩).2⟩
  notes u n h := ⟨h.memories.of_eq rfl rfl, (takesRequests_store.notes u n ⟨h.contexts, h.store⟩).1,
    (takesRequests_store.notes u n ⟨h.contexts, h.store⟩).2⟩
  hold u p x hx h := by
    obtain ⟨hc, hs⟩ := takesRequests_store.hold u p x hx ⟨h.contexts, h.store⟩
    exact ⟨h.memories.of_eq rfl rfl, hc, hs⟩
  bind u p x hf hx h := by
    obtain ⟨hc, hs⟩ := takesRequests_store.bind u p x hf hx ⟨h.contexts, h.store⟩
    exact ⟨h.memories.of_eq rfl rfl, hc, hs⟩
  release u p x hx h := by
    obtain ⟨hc, hs⟩ := takesRequests_store.release u p x hx ⟨h.contexts, h.store⟩
    exact ⟨MemoriesOk.retireOnRelease (s := u.setSnap p x) (h.memories.of_eq rfl rfl), hc, hs⟩
  txn u p hd r hr args complete h := by
    obtain ⟨hc, hs⟩ := takesRequests_store.txn u p hd r hr args complete ⟨h.contexts, h.store⟩
    exact ⟨h.memories.takingOf_txn hr p args, hc, hs⟩
  resetTxn u p hd h := by
    obtain ⟨hc, hs⟩ := takesRequests_store.resetTxn u p hd ⟨h.contexts, h.store⟩
    exact ⟨h.memories.resetTxn p, hc, hs⟩
  checkpoint u hd hn hq h := by
    obtain ⟨hc, hs⟩ := takesRequests_store.checkpoint u hd hn hq ⟨h.contexts, h.store⟩
    exact ⟨h.memories.of_eq rfl rfl, hc, hs⟩
  cancel u c hd hk hst h := by
    obtain ⟨hc, hs⟩ := takesRequests_store.cancel u c hd hk hst ⟨h.contexts, h.store⟩
    exact ⟨h.memories.endCheckpoint _, hc, hs⟩

theorem Grounds.exec (h : Grounds s) (himage : ImageOk s) {c : Instr} (hc : exec c s = .next t) : Grounds t :=
  ⟨h.memories.exec hc, h.contexts.exec himage hc, h.store.exec h.contexts himage hc⟩

theorem takesRequests_pages : TakesRequests (fun u => Grounds u ∧ PagesOk u) where
  iface u p x h := ⟨takesRequests_grounds.iface u p x h.1, h.2.of_store rfl rfl rfl rfl⟩
  notes u n h := ⟨takesRequests_grounds.notes u n h.1, h.2.of_store rfl rfl rfl rfl⟩
  hold u p x hx h := ⟨takesRequests_grounds.hold u p x hx h.1, h.2.of_store rfl rfl rfl rfl⟩
  bind u p x hf hx h := ⟨takesRequests_grounds.bind u p x hf hx h.1, h.2.of_store rfl rfl rfl rfl⟩
  release u p x hx h := ⟨takesRequests_grounds.release u p x hx h.1,
    h.2.release h.1.memories h.1.store (u := u.setSnap p x) rfl rfl rfl rfl rfl⟩
  txn u p hd r hr args complete h := ⟨takesRequests_grounds.txn u p hd r hr args complete h.1,
    h.2.takingOf_txn h.1.memories h.1.contexts hr complete⟩
  resetTxn u p hd h := ⟨takesRequests_grounds.resetTxn u p hd h.1, h.2.resetTxn h.1.memories h.1.contexts p⟩
  checkpoint u hd hn hq h := ⟨takesRequests_grounds.checkpoint u hd hn hq h.1, h.2.of_store rfl rfl rfl rfl⟩
  cancel u c hd hk hst h := ⟨takesRequests_grounds.cancel u c hd hk hst h.1, h.2.endCheckpoint h.1.memories h.1.store _⟩

/-- Every command keeps page conservation. -/
theorem PagesOk.exec (h : PagesOk s) (hg : Grounds s) (himage : ImageOk s) {c : Instr} (hexec : exec c s = .next t) : PagesOk t := by
  obtain ⟨hm, hc, hst⟩ := hg
  have same : ∀ {u}, SameStore s u → PagesOk u := fun hu =>
    h.of_eq hu.pool hu.directory hu.intents fun c hc => h.digested c (hu.engine ▸ hc)
  have ends : ∀ {p o queue}, ¬ (s.txns.get p).state.taken → PagesOk ({ s with
      pool := releaseBodies p s.pool (s.txns.get p).intents, commitQueue := queue }.setTxn p
        ⟨.none, [], none, (s.txns.get p).refusal, o⟩) := fun {p o queue} hs =>
    h.endBodies hm (fun he => hs ((hc.committer p).mpr he)) rfl queue
  refine takesRequests_pages.exec_store (fun hi => Grounds.exec ⟨hm, hc, hst⟩ himage hi) ⟨hm, hc, hst⟩ h same (fun r u hu => ?_)
    (fun p ho => ?_) (fun p rest o he hq _ => ?_) (fun p rest _ _ _ => h.reserveTxn rest) (fun c he => h.digestPage he)
    (fun c he htodo => h.publishCommit hm hc hst he htodo) (fun cause _ => pagesOk_reset.of_store rfl rfl rfl rfl)
    (fun c e u v hl hread hu huv => ?_) hexec
  · have hpages := same hu
    have hretires : ∀ d ∈ u.directory, Retires d.chain (releaseCheck (holdingGens { u with
        image := { u.image with checkpoint := none, op := .none }, slot4 := none }) d) := fun d hd =>
      releaseCheck_retires _ (hst.occupied d (hu.directory ▸ hd))
    have hmem : MemoriesOk { s with pool := u.pool } := hm.of_eq hu.pool rfl
    exact (PagesOk.retireBy (s := { u with image := { u.image with checkpoint := none, op := .none }, slot4 := none, flash := s.flash })
      (hpages.of_store rfl rfl rfl rfl) (hmem.of_eq rfl rfl) hretires).of_store rfl rfl rfl rfl
  · exact (ends (queue := s.commitQueue) (o := .timedOut) (CtxState.plain.not_taken (.inr ho))).of_store rfl rfl rfl rfl
  · have hs : (s.txns.get p).state = .queued := (hc.queued p).mp (by simp [hq])
    have := ends (p := p) (queue := rest) (o := o) (by rw [hs]; rintro (ht | ht) <;> cases ht)
    refine this.of_store ?_ rfl ?_ rfl
    · simp [rejectTxn, Machine.discardTxn]
    · simp [rejectTxn, Machine.discardTxn]
  · obtain ⟨hidle, -⟩ := quiet_of_loader hc himage (by rw [hl]; nofun)
    have hu := h.installEntry hm hst.tagsRise hidle hread hu
    exact hu.of_eq huv.pool huv.directory huv.intents fun c hc => hu.digested c (huv.engine ▸ hc)

/-- Settles O9: each operation of the pool balances its page against the lists. -/
theorem pagesStayConserved : Obligations.PagesStayConserved := by
  intro s t h hstep
  rcases step_cases hstep with rfl | ⟨c, rest, -, hc⟩
  · exact h.pages
  · exact PagesOk.exec (s := { s with pending := rest }) (h.pages.of_store rfl rfl rfl rfl)
      ⟨h.memories.of_eq rfl rfl, h.contexts.of_eq rfl rfl rfl rfl rfl, h.store.of_eq rfl rfl rfl rfl rfl rfl rfl⟩
      { h.image with } hc

end Sys2Proof.Machine
end

section
/-! SUPPORT. Views: what a generation held, or the current one, shows of each tag and of the bodies behind it, under every
command of a READY device but a device reset. The statement about held views. -/

namespace Sys2Proof.Machine

variable {s t u v : State} {p : Port}

/-- The generations at which something looks at the store: those held, and the current one, at which a slot may be bound. -/
def Sees (s : State) (x : Gen) : Prop := x ∈ holdingGens s ∨ x = s.g

/-- A view shows the same in two states: the same version of each tag, with the same body. -/
def sameView (s t : State) (x : Gen) : Prop :=
  ∀ tag, visible t.directory tag x = visible s.directory tag x
    ∧ ∀ v, visible s.directory tag x = some v → v.body t.pool = v.body s.pool

/-- What both states look at shows the same. -/
def ViewsKept (s t : State) : Prop := ∀ x, Sees s x → Sees t x → sameView s t x

/-- A change that looks at no generation anew and leaves what it still looks at. -/
structure Narrows (u v : State) : Prop where
  sees : ∀ x, Sees v x → Sees u x
  kept : ∀ x, Sees v x → sameView u v x

theorem sameView.refl (s : State) (x : Gen) : sameView s s x := fun _ => ⟨rfl, fun _ _ => rfl⟩

theorem sameView.trans {x : Gen} (h : sameView s u x) (h' : sameView u v x) : sameView s v x := fun tag =>
  ⟨(h' tag).1.trans (h tag).1, fun w hw => ((h' tag).2 w ((h tag).1.trans hw)).trans ((h tag).2 w hw)⟩

theorem ViewsKept.refl (s : State) : ViewsKept s s := fun x _ _ => .refl s x

theorem ViewsKept.narrowed (h : ViewsKept s u) (n : Narrows u v) : ViewsKept s v := fun x hs hv =>
  (h x hs (n.sees x hv)).trans (n.kept x hv)

theorem visible_mem {dir : List DirSlot} {tag : Tag} {x : Gen} {w : Version} (h : visible dir tag x = some w) :
    ∃ d ∈ dir, w ∈ d.chain := by
  obtain ⟨-, newer, older, hc, -⟩ := visible_eq_some_iff.mp h
  rcases chainOf_mem_or_nil dir tag with hn | ⟨d, hd, -, hd'⟩
  · rw [hn] at hc
    exact absurd hc.symm (by simp)
  · exact ⟨d, hd, by rw [← hd', hc]; simp⟩

/-- The same directory, and the same bytes behind its versions. -/
theorem Narrows.of_bodies (g : v.g = u.g) (dir : v.directory = u.directory)
    (gens : ∀ x ∈ holdingGens v, x ∈ holdingGens u ∨ x = u.g)
    (bodies : ∀ d ∈ u.directory, ∀ w ∈ d.chain, w.body v.pool = w.body u.pool) : Narrows u v where
  sees x hx := hx.elim (gens x) fun e => .inr (e.trans g)
  kept x _ tag := by
    refine ⟨by rw [dir], fun w hw => ?_⟩
    obtain ⟨d, hd, hwd⟩ := visible_mem hw
    exact bodies d hd w hwd

theorem Narrows.of_same (g : v.g = u.g) (dir : v.directory = u.directory) (pool : v.pool = u.pool)
    (gens : ∀ x ∈ holdingGens v, x ∈ holdingGens u ∨ x = u.g) : Narrows u v :=
  .of_bodies g dir gens fun _ _ _ _ => by rw [pool]

theorem Narrows.of_eq (h : Narrows u v) (g : t.g = v.g) (dir : t.directory = v.directory) (pool : t.pool = v.pool)
    (snaps : t.snaps = v.snaps) (slot4 : t.slot4 = v.slot4) : Narrows u t := by
  have hsees : ∀ x, Sees t x → Sees v x := fun x hx => by
    rwa [Sees, mem_holdingGens_of_snaps (fun q => by rw [snaps]) slot4, g] at hx
  exact ⟨fun x hx => h.sees x (hsees x hx), fun x hx => by rw [sameView, dir, pool]; exact h.kept x (hsees x hx)⟩

theorem Version.body_of_bytes {pool pool' : Pool} (h : pool'.bytes = pool.bytes) (w : Version) : w.body pool' = w.body pool :=
  Version.body_congr fun m _ j _ => by rw [Pool.pageByte, h, Pool.pageByte]

/-- Another context, over a pool with the same bytes behind the versions. -/
theorem Narrows.of_txn (u : State) (p : Port) (x : Context) (queue : List Port) {pool : Pool}
    (bodies : ∀ d ∈ u.directory, ∀ w ∈ d.chain, w.body pool = w.body u.pool) :
    Narrows u ({ u with pool := pool, commitQueue := queue }.setTxn p x) :=
  .of_bodies rfl rfl (fun _ hx => .inl hx) bodies

/-- Retirement at a release leaves what is still held and what the current generation shows (R19). -/
theorem Narrows.release (hst : StoreOk u) {w : State} (g : w.g = u.g) (dir : w.directory = u.directory) (pool : w.pool = u.pool)
    (gens : ∀ x ∈ holdingGens w, x ∈ holdingGens u ∨ x = u.g) : Narrows u (retireOnRelease w) where
  sees x hx := hx.elim (gens x) fun e => .inr (e.trans g)
  kept x hx tag := by
    have hbytes : (retireOnRelease w).pool.bytes = u.pool.bytes := by
      rw [retireOnRelease_pool, Pool.loseAll_bytes, pool]
    refine ⟨?_, fun y _ => Version.body_of_bytes hbytes y⟩
    have hdir : DirOk u.g w.directory := dir ▸ hst.dirOk
    have hretires : ∀ d ∈ w.directory, Retires d.chain (releaseCheck (holdingGens w) d) := fun d hd =>
      releaseCheck_retires (holdingGens w) (hdir.occupied d hd)
    simp only [visible, ← dir]
    rcases chainOf_retireBy_retires hdir hretires tag with ⟨hn, hn'⟩ | ⟨d, hd, -, hc, hc', -⟩
    · rw [hn, retireOnRelease, hn']
    · rw [hc, retireOnRelease, hc']
      refine visibleAt_releaseCheck (hdir.chains d hd).falls (hx.imp_right fun e y hy => ?_)
      rw [e]
      exact ((hdir.chains d hd).gens y hy).2.trans_eq (g.symm ▸ rfl)

end Sys2Proof.Machine
end

section
/-! SUPPORT. Held views under the requests, the engine and a publish; the statement about held views. -/

namespace Sys2Proof.Machine

variable {s t u v : State} {p : Port}

/-! ### Requests -/

/-- A staging request changes no byte behind a version (R34, R70). -/
theorem Narrows.staged (h : PagesOk u) (hm : MemoriesOk u) (hst : Staged p u t) : Narrows u (noteStaging p .none t) := by
  have released : ∀ op, ∀ d ∈ u.directory, ∀ w ∈ d.chain, w.body (releaseOp p op u.pool) = w.body u.pool := fun op _ _ w _ =>
    Version.body_of_bytes (releaseOp_releases u.pool p op).bytes w
  cases hst with
  | appended tag op record absent room bodiless live =>
    rw [noteStaging_withIntents p .none _ u.pool u]
    exact .of_txn u p _ u.commitQueue fun _ _ _ _ => rfl
  | changed tag i op found bodiless base =>
    rw [noteStaging_withIntents]
    exact .of_txn u p _ u.commitQueue (released i.op)
  | removed tag i found =>
    rw [noteStaging_withIntents]
    exact .of_txn u p _ u.commitQueue (released i.op)
  | claimed tag start change pool body record found asked granted =>
    obtain ⟨changed, hchange, -, hpool⟩ := stagedClaim_inv granted
    have hin := startIn_of_found h hm found
    obtain ⟨freed, released, taken, length, contents, hclaim, -⟩ := asked.granted hin hchange
    rw [noteStaging_withIntents]
    refine .of_txn u p _ u.commitQueue fun d hd w hw => ?_
    have hbytes : pool.bytes = changed.bytes := by rw [hpool]
    exact (Version.body_of_bytes hbytes w).trans (hin.version_kept hclaim.toClaimed hd hw)

theorem Narrows.ended (u : State) (p : Port) (x : Context) (queue : List Port) :
    Narrows u ({ u with pool := releaseBodies p u.pool (u.txns.get p).intents, commitQueue := queue }.setTxn p x) :=
  .of_txn u p x queue fun _ _ w _ => Version.body_of_bytes (releaseBodies_releases u.pool p (u.txns.get p).intents).bytes w

theorem Narrows.takingOf_txn (h : PagesOk u) (hm : MemoriesOk u) {r : Request} (hr : r ∈ txnRequests)
    {args : List Byte} (complete : Complete r args) : Narrows u (takingOf r p args u).1 := by
  have same : ∀ x queue, Narrows u ({ u with commitQueue := queue }.setTxn p x) := fun x queue =>
    .of_txn u p x queue fun _ _ _ _ => rfl
  exact takingOf_txn_of hr complete (.of_same rfl rfl rfl fun _ hx => .inl hx) (fun _ _ => same _ u.commitQueue)
    (fun _ _ _ => same _ u.commitQueue) (fun _ t hst => .staged h hm hst) (fun _ _ => same _ u.commitQueue)
    (fun _ _ => same _ _) (fun _ => .ended u p _ u.commitQueue) (fun _ => .ended u p _ _)

theorem Narrows.resetTxn (hc : ContextsOk u) (p : Port) : Narrows u (resetTxn p u) := by
  refine resetTxn_of hc (fun _ => .of_txn u p _ u.commitQueue fun _ _ _ _ => rfl)
    (fun _ => .of_txn u p _ u.commitQueue fun _ _ _ _ => rfl) (fun _ => ?_)
  have := Narrows.ended u p ⟨.none, [], none, .none, .none⟩ (u.commitQueue.filter (fun q => q != p))
  simpa [discardTxn, leaveQueue] using this

/-- The release of a slot, with its retirement (R19). -/
theorem narrows_release (hst : StoreOk u) {x : Snap} (hx : x.state = .free ∨ x.state = .lapsed) :
    Narrows u (retireOnRelease (u.setSnap p x)) := by
  refine .release hst rfl rfl rfl fun y hy => .inl ((mem_holdingGens_setSnap hy).resolve_right fun hy => ?_)
  rcases hx with hx | hx <;> rw [hx] at hy <;> rcases hy with hy | hy <;> cases hy

/-- The end of a checkpoint looks away from slot 4 (R156). -/
theorem Narrows.endCheckpoint (hst : StoreOk s) (h : SameStore s u) (r : ImageResult) : Narrows s (endCheckpoint r u) := by
  have hreleased := Narrows.release (w := { u with image := { u.image with checkpoint := none, op := .none }, slot4 := none })
    hst h.g h.directory h.pool fun x hx => .inl (h.holdingGens.mp (by
      rw [mem_holdingGens] at hx ⊢
      exact .inl (hx.resolve_right (by rintro ⟨⟩))))
  exact ⟨hreleased.sees, hreleased.kept⟩

/-! ### PUBLISH (R110, R19) -/

/-- A held view sees the same behind the versions that a publish installs. -/
theorem ViewsKept.publishCommit (hst : StoreOk s) (hc : ContextsOk s) {c : Commit} (he : s.engine = .digesting c) :
    ViewsKept s (publishCommit c s) := by
  obtain ⟨notes, heq⟩ := publishCommit_eq c s
  have hlt : s.g < s.g + 1#32 := by
    have := (hst.unswept.promised c he).gRoom
    bv_omega
  rw [heq]
  intro x hsx htx tag
  have hle : x ≤ s.g := hsx.elim (fun hx => (hst.snapGens x hx).2) (fun e => e ▸ BitVec.le_refl _)
  have hnew : x < s.g + 1#32 := Gen.lt_of_le_of_lt hle hlt
  have hheld : x ∈ holdingGens s := htx.resolve_right fun (e : x = s.g + 1#32) => BitVec.lt_irrefl x (e.symm ▸ hnew)
  have hdir := hst.installedState hc he
  have hr := publishCheck_retires_installed hst hc he (holdingGens (installedState c s)) ((s.txns.get c.port).intents.map Intent.tag)
  have hnodup := (hc.contexts c.port).tagsDiffer
  have hpool : (publishedState c s).pool.bytes = s.pool.bytes := by
    rw [publishedState, retireOnPublish, retireBy_pool, Pool.loseAll_bytes]
    exact (handOverAll_fields _ _ _).1
  refine ⟨?_, fun w _ => Version.body_of_bytes hpool w⟩
  show visibleAt (chainOf (publishedState c s).directory tag) x = visibleAt (chainOf s.directory tag) x
  by_cases ht : tag ∈ (s.txns.get c.port).intents.map Intent.tag
  · obtain ⟨i, hi, rfl⟩ := List.mem_map.mp ht
    have hchain : chainOf (installedState c s).directory i.tag = _ := chainOf_installAll hst.tagsRise hnodup hi
    rcases chainOf_retireBy_retires hdir hr i.tag with ⟨hn, -⟩ | ⟨d, hd, -, hcd, hcd', -⟩
    · rw [hchain] at hn
      cases hn
    · rw [hcd] at hchain
      rw [publishedState, retireOnPublish, hcd']
      exact visibleAt_publishCheck hchain (hdir.chains d hd).falls hheld hnew
  · have hchain : chainOf (installedState c s).directory tag = _ := chainOf_installAll_of_not_mem ht
    rcases chainOf_retireBy_retires hdir hr tag with ⟨hn, hn'⟩ | ⟨d, hd, htag, hcd, hcd', -⟩
    · rw [publishedState, retireOnPublish, hn', ← hchain, hn]
    · rw [publishedState, retireOnPublish, hcd', publishCheck_of_unchanged _ (htag ▸ ht), ← hchain, hcd]

/-! ### Every command -/

theorem takesRequests_views (s : State) : TakesRequests (fun u => (Grounds u ∧ PagesOk u) ∧ ViewsKept s u) where
  iface u p x h := ⟨takesRequests_pages.iface u p x h.1, h.2.narrowed (.of_same rfl rfl rfl fun _ hx => .inl hx)⟩
  notes u n h := ⟨takesRequests_pages.notes u n h.1, h.2.narrowed (.of_same rfl rfl rfl fun _ hx => .inl hx)⟩
  hold u p x hx h := by
    refine ⟨takesRequests_pages.hold u p x hx h.1, h.2.narrowed (.of_same rfl rfl rfl fun y hy => .inl ?_)⟩
    refine (mem_holdingGens_of_snaps (s := u) (t := u.setSnap p x) (fun q => ?_) rfl).mp hy
    by_cases hq : q = p
    · subst hq
      simpa using hx
    · simp [hq]
  bind u p x hf hx h := by
    refine ⟨takesRequests_pages.bind u p x hf hx h.1, h.2.narrowed (.of_same rfl rfl rfl fun y hy => ?_)⟩
    refine (mem_holdingGens_setSnap hy).imp_right fun hy => ?_
    rcases hx with hx | hx <;> rw [hx] at hy <;> rcases hy with hy | hy <;> cases hy <;> rfl
  release u p x hx h := ⟨takesRequests_pages.release u p x hx h.1, h.2.narrowed (narrows_release h.1.1.store hx)⟩
  txn u p hd r hr args complete h := ⟨takesRequests_pages.txn u p hd r hr args complete h.1,
    h.2.narrowed (.takingOf_txn h.1.2 h.1.1.memories hr complete)⟩
  resetTxn u p hd h := ⟨takesRequests_pages.resetTxn u p hd h.1, h.2.narrowed (.resetTxn h.1.1.contexts p)⟩
  checkpoint u hd hn hq h := by
    refine ⟨takesRequests_pages.checkpoint u hd hn hq h.1, h.2.narrowed (.of_same rfl rfl rfl fun y hy => ?_)⟩
    rw [mem_holdingGens] at hy ⊢
    rcases hy with hy | hy
    · exact .inl (.inl hy)
    · cases hy
      exact .inr rfl
  cancel u c hd hk hs h := ⟨takesRequests_pages.cancel u c hd hk hs h.1,
    h.2.narrowed (.endCheckpoint h.1.1.store (.refl u) _)⟩

/-- Every command of a READY device but a device reset keeps every view. -/
theorem ViewsKept.exec (hg : Grounds s) (h : PagesOk s) (himage : ImageOk s) (hready : s.image.device = .ready) {c : Instr}
    (hreset : ∀ cause, c ≠ .deviceReset cause) (hexec : exec c s = .next t) : ViewsKept s t := by
  have of : ∀ {u}, Narrows s u → ViewsKept s u := (ViewsKept.refl s).narrowed
  refine (takesRequests_views s).exec_store (fun hi => ⟨hg.exec himage hi, h.exec hg himage hi⟩) ⟨hg, h⟩ (.refl s)
    (fun hu => of (.of_same hu.g hu.directory hu.pool fun _ hx => .inl (hu.holdingGens.mp hx)))
    (fun r u hu => of (.endCheckpoint hg.store hu r)) (fun p ho => ?_) (fun p rest o he hq _ => ?_) (fun p rest _ _ _ => ?_)
    (fun c he => of (.of_same rfl rfl rfl fun _ hx => .inl hx)) (fun c he _ => .publishCommit hg.store hg.contexts he)
    (fun cause hcause => absurd hcause (hreset cause)) (fun c e u v hl _ _ _ => ?_) hexec
  · exact of ((Narrows.ended s p ⟨.none, [], none, (s.txns.get p).refusal, .timedOut⟩ s.commitQueue).of_eq rfl rfl rfl rfl rfl)
  · refine of ((Narrows.ended s p ⟨.none, [], none, (s.txns.get p).refusal, o⟩ rest).of_eq rfl rfl ?_ rfl rfl)
    simp [rejectTxn, discardTxn]
  · exact of (.of_same rfl rfl rfl fun _ hx => .inl hx)
  · rw [himage.readyLoaded hready] at hl
    cases hl

/-- Settles O11: retirement spares what a generation held sees, and nothing writes a byte behind a version. -/
theorem heldViewsStayFixed : Obligations.HeldViewsStayFixed := fun _ _ _ h hready hreset hexec g hs ht =>
  ViewsKept.exec ⟨h.memories, h.contexts, h.store⟩ h.pages h.image hready hreset hexec g (.inl hs) (.inl ht)

end Sys2Proof.Machine
end

section
/-! SUPPORT. The image controller in order: states that share it, what runs in the flash, and the three shapes that it has
outside device reset: at rest, with a checkpoint, with a load. -/

namespace Sys2Proof.Machine

variable {s t u : State} {p : Port}

/-! ### The records that a checkpoint saves stay (R152, R136) -/

theorem eq_of_rising_of_mem_iff {xs ys : List (Tag × Version)} (hx : xs.Pairwise (fun a b => a.1 < b.1))
    (hy : ys.Pairwise (fun a b => a.1 < b.1)) (h : ∀ a, a ∈ xs ↔ a ∈ ys) : xs = ys := by
  have nodup : ∀ {zs : List (Tag × Version)}, zs.Pairwise (fun a b => a.1 < b.1) → zs.Nodup := fun hz =>
    List.Pairwise.imp (R := fun a b => a.1 < b.1) (fun {a b} hlt (e : a = b) => BitVec.lt_irrefl b.1 (e ▸ hlt)) hz
  exact List.Perm.eq_of_pairwise (fun a b _ _ hab hba => absurd hba (BitVec.not_lt.mpr (BitVec.le_of_lt hab))) hx hy
    ((List.perm_ext_iff_of_nodup (nodup hx) (nodup hy)).mpr h)

/-- The records saved are those that the checkpoint's view shows. -/
theorem checkpointRecords_of_sameView (hs : (s.directory.map DirSlot.tag).Pairwise (· < ·))
    (ht : (t.directory.map DirSlot.tag).Pairwise (· < ·)) (slot4 : t.slot4 = s.slot4) (h : sameView s t (checkpointGen s)) :
    checkpointRecords t = checkpointRecords s := by
  have hgen : checkpointGen t = checkpointGen s := by rw [checkpointGen, slot4, checkpointGen]
  rw [checkpointRecords, checkpointRecords, hgen]
  refine congrArg _ (eq_of_rising_of_mem_iff (visibleRecords_rise ht _) (visibleRecords_rise hs _) fun ⟨tag, v⟩ => ?_)
  rw [mem_visibleRecords_iff ht, mem_visibleRecords_iff hs, (h tag).1]

/-- The generation of a checkpoint in progress is held by slot 4 (R136). -/
theorem StoreOk.checkpointGen_held (h : StoreOk s) {c : Checkpoint} (hc : s.image.checkpoint = some c) :
    s.slot4 = some (checkpointGen s) ∧ checkpointGen s ∈ holdingGens s := by
  have hsome : s.slot4.isSome = true := h.slotFour.trans (by rw [hc]; rfl)
  obtain ⟨g, hg⟩ := Option.isSome_iff_exists.mp hsome
  have hgen : checkpointGen s = g := by rw [checkpointGen, hg]; rfl
  rw [hgen]
  exact ⟨hg, mem_holdingGens.mpr (.inr hg)⟩

theorem checkpointRecords_of_views (hs : StoreOk s) (ht : (t.directory.map DirSlot.tag).Pairwise (· < ·)) (slot4 : t.slot4 = s.slot4)
    (h : ViewsKept s t) {c : Checkpoint} (hc : s.image.checkpoint = some c) : checkpointRecords t = checkpointRecords s := by
  obtain ⟨hslot, hheld⟩ := hs.checkpointGen_held hc
  exact checkpointRecords_of_sameView hs.tagsRise ht slot4
    (h _ (.inl hheld) (.inl (mem_holdingGens.mpr (.inr (slot4.trans hslot)))))

/-! ### The same image controller -/

/-- Another store under the same controller. -/
theorem ImageOk.of_store (h : ImageOk s) (inReset : t.inReset = s.inReset) (image : t.image = s.image)
    (running : t.flash.running = s.flash.running) (dir : s.image.device = .loading → s.directory = [] → t.directory = [])
    (records : ∀ c, s.image.checkpoint = some c → checkpointRecords t = checkpointRecords s) : ImageOk t where
  inReset hr := by
    obtain ⟨hd, hl, ho, hc, hdir⟩ := h.inReset (inReset ▸ hr)
    rw [image]
    exact ⟨hd, hl, ho, hc, dir hd hdir⟩
  readyLoaded := image ▸ h.readyLoaded
  loadingNoCheckpoint := image ▸ h.loadingNoCheckpoint
  noCurrentNoSequence := image ▸ h.noCurrentNoSequence
  target := image ▸ h.target
  sector := image ▸ h.sector
  unit := image ▸ h.unit
  opOwner := image ▸ h.opOwner
  opLoad := image ▸ h.opLoad
  readQuiet := by rw [image, running]; exact h.readQuiet
  loadQuiet := by rw [image, running]; exact h.loadQuiet
  headersOp := image ▸ h.headersOp
  notYetInstalled hl := by
    rw [image] at hl
    refine dir ?_ (h.notYetInstalled hl)
    cases hd : s.image.device with
    | loading => rfl
    | ready =>
      rw [h.readyLoaded hd] at hl
      rcases hl with hl | hl | ⟨c, hl⟩ <;> cases hl
  entriesOp := image ▸ h.entriesOp
  runUnit := running ▸ h.runUnit
  opUnit := image ▸ h.opUnit
  totals c hc := by
    rw [image] at hc ⊢
    rw [records c hc]
    exact h.totals c hc
  runSpares := by rw [image, running]; exact h.runSpares

theorem ImageOk.narrowed (h : ImageOk s) (hst : StoreOk s) (hdir : (t.directory.map DirSlot.tag).Pairwise (· < ·)) (n : Narrows s t)
    (slot4 : t.slot4 = s.slot4) (inReset : t.inReset = s.inReset) (image : t.image = s.image)
    (running : t.flash.running = s.flash.running) (dir : s.directory = [] → t.directory = []) : ImageOk t :=
  h.of_store inReset image running (fun _ => dir) fun _ hc =>
    checkpointRecords_of_views hst hdir slot4 ((ViewsKept.refl s).narrowed n) hc

theorem retireOnRelease_of_nil (h : s.directory = []) : (retireOnRelease s).directory = [] := by
  rw [retireOnRelease, retireBy_directory, h]
  rfl

/-! ### What runs in the flash (R140, R144) -/

/-- What runs in the flash has its size and reaches no byte of the current slot. -/
structure RunOk (f : Flash) (current : Option ImageSlot) : Prop where
  unit : ∀ addr data, f.running = some (.program addr data) → data.length = 256
  spares : ∀ run i, f.running = some run → current = some i → ∀ addr, run.reaches addr → ¬ i.holds addr

theorem ImageOk.runOk (h : ImageOk s) : RunOk s.flash s.image.current := ⟨h.runUnit, h.runSpares⟩

theorem RunOk.of_none {f : Flash} (h : f.running = none) (current : Option ImageSlot) : RunOk f current where
  unit addr data hr := by rw [h] at hr; cases hr
  spares run i hr := by rw [h] at hr; cases hr

theorem RunOk.settled (f : Flash) (left : Option (List Byte)) (current : Option ImageSlot) : RunOk (f.settle left) current :=
  .of_none (f.settle_running left) current

theorem ImageSlot.not_holds_of_other {i : ImageSlot} {addr : Nat} (h : i.other.holds addr) : ¬ i.holds addr := by
  have hsize : Config.imageSlotSize = 65536 := rfl
  cases i <;> simp only [ImageSlot.other, ImageSlot.holds, ImageSlot.base, hsize] at h ⊢ <;> omega

/-- An erase of a sector of the target (R153). -/
theorem RunOk.erasing {f : Flash} {target : ImageSlot} {current : Option ImageSlot} {k : Nat} (hk : k < 16)
    (htarget : ∀ i, current = some i → target = i.other) (h : f.running = some (.erase (sectorAddr target k))) : RunOk f current where
  unit addr data hr := by rw [h] at hr; cases hr
  spares run i hr hi addr hreach := by
    rw [h] at hr
    cases hr
    refine ImageSlot.not_holds_of_other (htarget i hi ▸ ?_)
    have hsize : Config.imageSlotSize = 65536 := rfl
    have hsector : Config.sectorSize = 4096 := rfl
    simp only [FlashRun.reaches, sectorAddr, hsector] at hreach
    simp only [ImageSlot.holds, hsize]
    omega

/-- A program of a unit of the target, the header or one of the stream (R142, R154). -/
theorem RunOk.programming {f : Flash} {target : ImageSlot} {current : Option ImageSlot} {offset : Nat} {data : List Byte}
    (hoffset : offset + 256 ≤ 65536) (hdata : data.length = 256) (htarget : ∀ i, current = some i → target = i.other)
    (h : f.running = some (.program (target.base + offset) data)) : RunOk f current where
  unit addr data' hr := by
    rw [h] at hr
    cases hr
    exact hdata
  spares run i hr hi addr hreach := by
    rw [h] at hr
    cases hr
    refine ImageSlot.not_holds_of_other (htarget i hi ▸ ?_)
    have hsize : Config.imageSlotSize = 65536 := rfl
    have hunit : Config.unitSize = 256 := rfl
    simp only [FlashRun.reaches, hunit] at hreach
    simp only [ImageSlot.holds, hsize]
    omega

/-! ### At rest, checkpointing, loading -/

/-- A READY controller with nothing to do. -/
theorem imageOk_atRest (inReset : s.inReset = false) (device : s.image.device = .ready) (loader : s.image.loader = .idle)
    (checkpoint : s.image.checkpoint = none) (op : s.image.op = .none) (sequence : s.image.current = none → s.image.sequence = 0#32)
    (run : RunOk s.flash s.image.current) : ImageOk s where
  inReset hr := by rw [inReset] at hr; cases hr
  readyLoaded _ := loader
  loadingNoCheckpoint hl := by rw [device] at hl; cases hl
  noCurrentNoSequence := sequence
  target c i hc := by rw [checkpoint] at hc; cases hc
  sector c k hc := by rw [checkpoint] at hc; cases hc
  unit c n q hc := by rw [checkpoint] at hc; cases hc
  opOwner := by rw [op, checkpoint]; exact iff_of_false (by decide) (by decide)
  opLoad ho := absurd op ho
  readQuiet ho := by rw [op] at ho; cases ho
  loadQuiet ho := by
    rw [op, loader] at ho
    rcases ho with ho | ho | ⟨c, ho | ho⟩ <;> cases ho
  headersOp hl := by
    rw [loader] at hl
    rcases hl with hl | hl <;> cases hl
  notYetInstalled hl := by
    rw [loader] at hl
    rcases hl with hl | hl | ⟨c, hl⟩ <;> cases hl
  entriesOp c hl := by
    rw [loader] at hl
    rcases hl with hl | hl <;> cases hl
  runUnit := run.unit
  opUnit data ho := by rw [op] at ho; cases ho
  totals c hc := by rw [checkpoint] at hc; cases hc
  runSpares := run.spares

/-- The cursors of a stage in range (R153, R154). -/
def Stage.inRange : Stage → Prop
  | .erasing k => k < 16
  | .writing n _ => n < 134
  | .sealing => True

/-- A READY controller with a checkpoint and an operation of it. -/
theorem imageOk_checkpointing {c : Checkpoint} (inReset : s.inReset = false) (device : s.image.device = .ready)
    (loader : s.image.loader = .idle) (checkpoint : s.image.checkpoint = some c) (op : s.image.op.forCheckpoint = true)
    (sequence : s.image.current = none → s.image.sequence = 0#32) (target : ∀ i, s.image.current = some i → c.target = i.other)
    (stage : c.stage.inRange) (quiet : s.image.op.reading = true → s.flash.running = none)
    (unit : ∀ data, s.image.op.unitData? = some data → data.length = 256) (totals : s.image.totalsOk (checkpointRecords s) c)
    (run : RunOk s.flash s.image.current) : ImageOk s where
  inReset hr := by rw [inReset] at hr; cases hr
  readyLoaded _ := loader
  loadingNoCheckpoint hl := by rw [device] at hl; cases hl
  noCurrentNoSequence := sequence
  target c' i hc := by
    rw [checkpoint] at hc
    cases hc
    exact target i
  sector c' k hc hk := by
    rw [checkpoint] at hc
    cases hc
    rw [hk] at stage
    exact stage
  unit c' n q hc hn := by
    rw [checkpoint] at hc
    cases hc
    rw [hn] at stage
    exact stage
  opOwner := by rw [op, checkpoint]; exact iff_of_true rfl rfl
  opLoad _ ho := by rw [op] at ho; cases ho
  readQuiet := quiet
  loadQuiet ho := by
    rw [loader] at ho
    rcases ho with ho | ho | ⟨c, ho | ho⟩
    · rw [ho] at op
      cases op
    all_goals cases ho
  headersOp hl := by
    rw [loader] at hl
    rcases hl with hl | hl <;> cases hl
  notYetInstalled hl := by
    rw [loader] at hl
    rcases hl with hl | hl | ⟨c, hl⟩ <;> cases hl
  entriesOp c hl := by
    rw [loader] at hl
    rcases hl with hl | hl <;> cases hl
  runUnit := run.unit
  opUnit := unit
  totals c' hc := by
    rw [checkpoint] at hc
    cases hc
    exact totals
  runSpares := run.spares

/-- The operations of a load (R146). -/
def FlashOp.loads (op : FlashOp) : Prop := op = .none ∨ op = .loadRead ∨ ∃ timer, op = .poll .loadRead timer

theorem FlashOp.loads.facts {op : FlashOp} (h : op.loads) :
    op.forCheckpoint = false ∧ op.reading = false ∧ op.unitData? = Option.none := by
  rcases h with rfl | rfl | ⟨timer, rfl⟩ <;> exact ⟨rfl, rfl, rfl⟩

/-- The phases of a load with the store and the flash that go with them (R146 to R148). -/
structure LoadPhase (s : State) : Prop where
  busy : s.image.loader ≠ .idle
  op : s.image.op.loads
  quiet : s.image.op = .loadRead ∨ s.image.loader ≠ .header0 → s.flash.running = none
  headers : s.image.loader = .header0 ∨ s.image.loader = .header1 →
    (s.image.op = .loadRead ∧ s.image.loader = .header1) ∨ ∃ timer, s.image.op = .poll .loadRead timer
  entries : ∀ c, s.image.loader = .checking c ∨ s.image.loader = .installing c →
    if 65536 < c.offset + 8 then s.image.op = .none else s.image.op = .loadRead ∨ ∃ timer, s.image.op = .poll .loadRead timer
  empty : (∀ c, s.image.loader ≠ .installing c) → s.directory = []

/-- A controller that loads. -/
theorem imageOk_loading (inReset : s.inReset = false) (device : s.image.device = .loading) (checkpoint : s.image.checkpoint = none)
    (current : s.image.current = none) (sequence : s.image.sequence = 0#32) (phase : LoadPhase s) (run : RunOk s.flash none) :
    ImageOk s where
  inReset hr := by rw [inReset] at hr; cases hr
  readyLoaded hd := by rw [device] at hd; cases hd
  loadingNoCheckpoint _ := ⟨checkpoint, current⟩
  noCurrentNoSequence _ := sequence
  target c i hc := by rw [checkpoint] at hc; cases hc
  sector c k hc := by rw [checkpoint] at hc; cases hc
  unit c n q hc := by rw [checkpoint] at hc; cases hc
  opOwner := by rw [phase.op.facts.1, checkpoint]; exact iff_of_false (by decide) (by decide)
  opLoad _ _ := ⟨device, phase.busy⟩
  readQuiet ho := by rw [phase.op.facts.2.1] at ho; cases ho
  loadQuiet ho := by
    refine phase.quiet (ho.imp_right fun ho he => ?_)
    rw [he] at ho
    rcases ho with ho | ⟨c, ho | ho⟩ <;> cases ho
  headersOp := phase.headers
  notYetInstalled hl := by
    refine phase.empty fun c hc => ?_
    rw [hc] at hl
    rcases hl with hl | hl | ⟨c, hl⟩ <;> cases hl
  entriesOp := phase.entries
  runUnit := run.unit
  opUnit data ho := by rw [phase.op.facts.2.2] at ho; cases ho
  totals c hc := by rw [checkpoint] at hc; cases hc
  runSpares run i _ hi := by rw [current] at hi; cases hi

/-! ### The three shapes read back -/

theorem ImageOk.not_inReset_of_ready (h : ImageOk s) (hd : s.image.device = .ready) : s.inReset = false := by
  cases hr : s.inReset with
  | false => rfl
  | true =>
    obtain ⟨hl, -⟩ := h.inReset hr
    rw [hd] at hl
    cases hl

theorem ImageOk.ready_of_checkpoint (h : ImageOk s) {c : Checkpoint} (hc : s.image.checkpoint = some c) :
    s.inReset = false ∧ s.image.device = .ready ∧ s.image.loader = .idle := by
  have hd : s.image.device = .ready := by
    cases hd : s.image.device with
    | ready => rfl
    | loading =>
      obtain ⟨hn, -⟩ := h.loadingNoCheckpoint hd
      rw [hc] at hn
      cases hn
  exact ⟨h.not_inReset_of_ready hd, hd, h.readyLoaded hd⟩

theorem ImageOk.stage_inRange (h : ImageOk s) {c : Checkpoint} (hc : s.image.checkpoint = some c) : c.stage.inRange := by
  cases hs : c.stage with
  | erasing k => exact h.sector c k hc hs
  | writing n position => exact h.unit c n position hc hs
  | sealing => trivial

/-- What an ImageOk state is while its loader is at work. -/
theorem ImageOk.loading (h : ImageOk s) (hl : s.image.loader ≠ .idle) : s.inReset = false ∧ s.image.device = .loading
    ∧ s.image.checkpoint = none ∧ s.image.current = none ∧ s.image.sequence = 0#32 := by
  have hd : s.image.device = .loading := by
    cases hd : s.image.device with
    | loading => rfl
    | ready => exact absurd (h.readyLoaded hd) hl
  obtain ⟨hc, hcurrent⟩ := h.loadingNoCheckpoint hd
  refine ⟨?_, hd, hc, hcurrent, h.noCurrentNoSequence hcurrent⟩
  cases hr : s.inReset with
  | false => rfl
  | true =>
    obtain ⟨-, hidle, -⟩ := h.inReset hr
    exact absurd hidle hl

end Sys2Proof.Machine
end

section
/-! SUPPORT. The image controller in order under the rows of the load and of a checkpoint. -/

namespace Sys2Proof.Machine

variable {s t u : State} {p : Port}

/-! ### The load (R146 to R150) -/

/-- What the load does next, over a quiet flash: it goes on at an entry. -/
theorem ImageOk.atEntry (h : ImageOk s) (busy : s.image.loader ≠ .idle) (quiet : s.flash.running = none)
    (inReset : u.inReset = s.inReset) (flash : u.flash = s.flash) {c : LoadCursor} {l : Loader} (hl : l = .checking c ∨ l = .installing c)
    (image : u.image = { s.image with loader := l, op := entryOp c }) (empty : l = .checking c → u.directory = []) : ImageOk u := by
  obtain ⟨hr, hd, hc, hcurrent, hsequence⟩ := h.loading busy
  have hload : u.image.loader = l := by rw [image]
  have hop : u.image.op = entryOp c := by rw [image]
  have hsize : Config.imageSlotSize = 65536 := rfl
  have hrunning : u.flash.running = none := by rw [flash, quiet]
  have hentry : entryOp c = if 65536 < c.offset + 8 then FlashOp.none else pollFor .loadRead := by rw [entryOp, hsize]
  refine imageOk_loading (inReset.trans hr) (by rw [image]; exact hd) (by rw [image]; exact hc) (by rw [image]; exact hcurrent)
    (by rw [image]; exact hsequence) ?_ (.of_none hrunning none)
  constructor
  case busy => rw [hload]; rcases hl with rfl | rfl <;> nofun
  case op =>
    rw [hop, hentry]
    split
    · exact .inl rfl
    · exact .inr (.inr ⟨_, rfl⟩)
  case quiet => exact fun _ => hrunning
  case headers =>
    rw [hload]
    rcases hl with rfl | rfl <;> rintro (hl | hl) <;> cases hl
  case entries =>
    intro c' hc'
    have : c' = c := by
      rw [hload] at hc'
      rcases hl with rfl | rfl <;> rcases hc' with hc' | hc' <;> cases hc' <;> rfl
    subst this
    rw [hop, hentry]
    split
    · rfl
    · exact .inr ⟨_, rfl⟩
  case empty =>
    intro hn
    rw [hload] at hn
    exact empty (hl.resolve_right (hn c))

/-- The load has ended (R150). -/
theorem imageOk_endLoad {r : LoadResult} {current : Option ImageSlot} {sequence : Gen} (inReset : s.inReset = false)
    (checkpoint : s.image.checkpoint = none) (hseq : current = none → sequence = 0#32) (run : RunOk s.flash current) :
    ImageOk (endLoad r current sequence s) :=
  imageOk_atRest (s := endLoad r current sequence s) inReset rfl rfl checkpoint rfl hseq run

theorem ImageOk.trySlots (h : ImageOk s) (busy : s.image.loader ≠ .idle) (quiet : s.flash.running = none) (empty : s.directory = [])
    (slots : List (ImageSlot × ImageHeader)) : ImageOk (trySlots s slots) := by
  obtain ⟨hr, -, hc, -, -⟩ := h.loading busy
  exact trySlots_of (imageOk_endLoad hr hc (fun _ => rfl) (.of_none quiet none))
    (fun i _ _ => imageOk_endLoad hr hc nofun (.of_none quiet (some i)))
    (fun i hh others => h.atEntry (c := firstEntry i hh others) busy quiet rfl rfl (.inl rfl) rfl fun _ => empty) slots

/-- A ready poll of the load sends its read, and the first of the header reads is followed by the poll of the second. -/
theorem ImageOk.sendLoadRead (h : ImageOk s) {timer : Timer} (hop : s.image.op = .poll .loadRead timer) (left : Option (List Byte)) :
    ImageOk (sendLoadRead (settledState left s)) := by
  obtain ⟨-, busy⟩ := h.opLoad (by rw [hop]; nofun) (by rw [hop]; rfl)
  obtain ⟨hr, hd, hc, hcurrent, hsequence⟩ := h.loading busy
  have hquiet := s.flash.settle_running left
  have hread : s.image.loader ≠ .header0 →
      ImageOk { s with flash := s.flash.settle left, image := { s.image with op := .loadRead } } := fun hl => by
    refine imageOk_loading hr hd hc hcurrent hsequence ?_ (.settled ..)
    constructor
    case busy => exact busy
    case op => exact .inr (.inl rfl)
    case quiet => exact fun _ => hquiet
    case headers => exact fun hh => .inl ⟨rfl, hh.resolve_left hl⟩
    case entries =>
      intro c hc
      have := h.entriesOp c hc
      rw [hop] at this
      split at this
      · cases this
      next hlt =>
        have hlt : ¬ 65536 < c.offset + 8 := hlt
        rw [if_neg hlt]
        exact .inl rfl
    case empty =>
      intro hn
      refine h.notYetInstalled ?_
      cases hload : s.image.loader with
      | idle => exact absurd hload busy
      | header0 => exact .inl rfl
      | header1 => exact .inr (.inl rfl)
      | checking c => exact .inr (.inr ⟨c, rfl⟩)
      | installing c => exact absurd hload (hn c)
  unfold Machine.sendLoadRead
  split
  next hl =>
    have hl : s.image.loader = .header0 := hl
    refine imageOk_loading hr hd hc hcurrent hsequence ?_ (.settled ..)
    constructor
    case busy => nofun
    case op => exact .inr (.inr ⟨_, rfl⟩)
    case quiet => exact fun _ => hquiet
    case headers => exact fun _ => .inr ⟨_, rfl⟩
    case entries => rintro c (hl | hl) <;> cases hl
    case empty => exact fun _ => h.notYetInstalled (.inl hl)
  next hl => exact absurd hl busy
  all_goals
    next hl =>
      refine hread fun he => ?_
      have hl := he.symm.trans hl
      cases hl

/-- The load begins with the poll of slot 0's header (R145, R146). -/
theorem ImageOk.deviceResetEnd (h : ImageOk s) (adr : BitVec 3) (priv : BitVec 4) : ImageOk (deviceResetEnd adr priv s) := by
  unfold Machine.deviceResetEnd
  split
  next hr =>
    obtain ⟨hd, -, -, hcurrent, hdir⟩ := h.inReset hr
    obtain ⟨hc, -⟩ := h.loadingNoCheckpoint hd
    refine imageOk_loading rfl rfl hc hcurrent (h.noCurrentNoSequence hcurrent) ?_ ⟨h.runUnit, nofun⟩
    constructor
    case busy => nofun
    case op => exact .inr (.inr ⟨_, rfl⟩)
    case quiet =>
      rintro (hop | hl)
      · cases hop
      · exact absurd rfl hl
    case headers => exact fun _ => .inr ⟨_, rfl⟩
    case entries => rintro c (hl | hl) <;> cases hl
    case empty => exact fun _ => hdir
  next => exact h

/-! ### Checkpoints (R152 to R156) -/

/-- The tag position past the last record placed (R136). -/
def tagPast (placed : List (Tag × Version)) : Tag :=
  match placed.getLast? with
  | none => 0x0000#16
  | some x => x.1 + 1#16

theorem totalsOk_of_erasing {m : Image} {records : List (Tag × Version)} {c : Checkpoint} {k : Nat} (h : c.stage = .erasing k) :
    m.totalsOk records c ↔ (c.records, c.bodyBytes) = (0, 0) := by
  simp only [Image.totalsOk, h]

theorem totalsOk_of_sealing {m : Image} {records : List (Tag × Version)} {c : Checkpoint} (h : c.stage = .sealing) :
    m.totalsOk records c ↔ (c.records, c.bodyBytes) = totalsOf records := by
  simp only [Image.totalsOk, h]

theorem totalsOk_of_writing {m : Image} {records : List (Tag × Version)} {c : Checkpoint} {n filled : Nat} {position : Tag}
    (h : c.stage = .writing n position) (hf : (if m.op.unitData?.isSome then n + 1 else n) = filled) :
    m.totalsOk records c ↔ (c.records, c.bodyBytes) = totalsOf (placedWithin (256 * filled) records)
      ∧ position = tagPast (placedWithin (256 * filled) records) := by
  subst hf
  simp only [Image.totalsOk, h]
  rfl

theorem placedWithin_zero (records : List (Tag × Version)) : placedWithin 0 records = [] := by
  cases records <;> rfl

theorem placedWithin_eq_nil_iff {room : Nat} {records : List (Tag × Version)} :
    placedWithin room records = [] ↔ room = 0 ∨ records = [] := by
  cases records with
  | nil => simp [placedWithin]
  | cons x rest =>
    rw [placedWithin]
    split <;> simp_all

/-- Room for the whole stream places every record. -/
theorem placedWithin_of_room {room : Nat} {records : List (Tag × Version)} (h : streamLength records ≤ room) :
    placedWithin room records = records := by
  induction records generalizing room with
  | nil => rfl
  | cons x rest ih =>
    have hcons : streamLength (x :: rest) = (8 + x.2.length) + streamLength rest := rfl
    rw [placedWithin, if_neg (by omega), ih (by omega)]

/-- A unit filled leaves the totals and the position of what is placed by then (R154). -/
theorem fillUnit_eq {c : Checkpoint} {n : Nat} {position : Tag}
    (hposition : position = tagPast (placedWithin (256 * n) (checkpointRecords s))) :
    fillUnit s c n position = ⟨.writing n (tagPast (placedWithin (256 * (n + 1)) (checkpointRecords s))), c.target,
      (placedWithin (256 * (n + 1)) (checkpointRecords s)).length,
      ((placedWithin (256 * (n + 1)) (checkpointRecords s)).map (fun x => x.2.length)).sum⟩ := by
  have hunit : Config.unitSize = 256 := rfl
  simp only [fillUnit, hunit, Checkpoint.mk.injEq, Stage.writing.injEq, true_and, and_true]
  cases hlast : (placedWithin (256 * (n + 1)) (checkpointRecords s)).getLast? with
  | some x => simp only [tagPast, hlast]
  | none =>
    have hnil := (placedWithin_eq_nil_iff.mp (List.getLast?_eq_none_iff.mp hlast)).resolve_left (by omega)
    rw [hposition, hnil]
    simp only [tagPast, placedWithin]

/-- A checkpoint goes on with an operation of its own. -/
theorem ImageOk.withCheckpoint (h : ImageOk s) {c c' : Checkpoint} (hc : s.image.checkpoint = some c) (u : State) {op : FlashOp}
    (inReset : u.inReset = s.inReset) (image : u.image = s.image) (target : c'.target = c.target)
    (owner : op.forCheckpoint = true) (stage : c'.stage.inRange) (quiet : op.reading = true → u.flash.running = none)
    (unit : ∀ data, op.unitData? = some data → data.length = 256)
    (totals : ({ s.image with checkpoint := some c', op := op } : Image).totalsOk (checkpointRecords u) c')
    (run : (∀ i, s.image.current = some i → c.target = i.other) → RunOk u.flash s.image.current) :
    ImageOk (withCheckpoint c' op u) := by
  obtain ⟨hr, hd, hl⟩ := h.ready_of_checkpoint hc
  have htarget : ∀ i, s.image.current = some i → c.target = i.other := fun i => h.target c i hc
  refine imageOk_checkpointing (c := c') (s := Machine.withCheckpoint c' op u) (inReset.trans hr) ?_ ?_ rfl owner ?_ ?_
    stage quiet unit ?_ ?_
  · exact (congrArg Image.device image).trans hd
  · exact (congrArg Image.loader image).trans hl
  · show u.image.current = none → u.image.sequence = 0#32
    rw [image]
    exact h.noCurrentNoSequence
  · show ∀ i, u.image.current = some i → _
    rw [image, target]
    exact htarget
  · show ({ u.image with checkpoint := some c', op := op } : Image).totalsOk (checkpointRecords u) c'
    rw [image]
    exact totals
  · show RunOk u.flash u.image.current
    rw [image]
    exact run htarget

/-- The next operation of the same checkpoint, with the same unit if any. -/
theorem ImageOk.withOp (h : ImageOk s) {c : Checkpoint} (hc : s.image.checkpoint = some c) (left : Option (List Byte)) {op : FlashOp}
    (owner : op.forCheckpoint = true) (unit : op.unitData? = s.image.op.unitData?) :
    ImageOk { s with flash := s.flash.settle left, image := { s.image with op := op } } := by
  have := h.withCheckpoint (c' := c) hc (settledState left s) (op := op) rfl rfl rfl owner (h.stage_inRange hc)
    (fun _ => s.flash.settle_running left) (unit ▸ h.opUnit) ?_ fun _ => .settled ..
  · simpa only [Machine.withCheckpoint, ← hc] using this
  · have htotals := h.totals c hc
    unfold Image.totalsOk at htotals ⊢
    rw [unit]
    exact htotals

/-- What still ran in the flash has ended; nothing else has changed. -/
theorem ImageOk.settled (h : ImageOk s) (left : Option (List Byte)) : ImageOk (settledState left s) where
  inReset := h.inReset
  readyLoaded := h.readyLoaded
  loadingNoCheckpoint := h.loadingNoCheckpoint
  noCurrentNoSequence := h.noCurrentNoSequence
  target := h.target
  sector := h.sector
  unit := h.unit
  opOwner := h.opOwner
  opLoad := h.opLoad
  readQuiet _ := s.flash.settle_running left
  loadQuiet _ := s.flash.settle_running left
  headersOp := h.headersOp
  notYetInstalled := h.notYetInstalled
  entriesOp := h.entriesOp
  runUnit := (RunOk.settled s.flash left none).unit
  opUnit := h.opUnit
  totals := h.totals
  runSpares := (RunOk.settled s.flash left s.image.current).spares

theorem padUnit_length {bs : List Byte} (h : bs.length ≤ 256) : (padUnit bs).length = 256 := by
  have hunit : Config.unitSize = 256 := rfl
  rw [padUnit, List.length_append, List.length_replicate, hunit]
  omega

theorem streamUnit_length (s : State) (n : Nat) : (streamUnit s n).length = 256 :=
  padUnit_length (List.length_take_le ..)

/-- The sector erase that a checkpoint sends (R153). -/
theorem ImageOk.sendErase (h : ImageOk s) {c : Checkpoint} (hc : s.image.checkpoint = some c) (left : Option (List Byte)) :
    ImageOk (sendErase c (settledState left s)) := by
  have hrange := h.stage_inRange hc
  unfold Machine.sendErase
  split
  next k hk =>
    have hlt : k < 16 := by rwa [hk] at hrange
    exact h.withCheckpoint hc (sendRun _ (settledState left s)) rfl rfl rfl rfl hrange nofun nofun
      ((totalsOk_of_erasing hk).mpr ((totalsOk_of_erasing hk).mp (h.totals c hc)))
      fun htarget => .erasing hlt htarget rfl
  all_goals exact h.settled left

/-- The page program that a checkpoint sends (R154, R155). -/
theorem ImageOk.sendProgram (h : ImageOk s) {c : Checkpoint} (hc : s.image.checkpoint = some c) {timer : Timer}
    (hop : s.image.op = .poll .program timer) (left : Option (List Byte)) : ImageOk (sendProgram c (settledState left s)) := by
  have hrange := h.stage_inRange hc
  have htotals := h.totals c hc
  have hnone : s.image.op.unitData? = Option.none := by rw [hop]; rfl
  unfold Machine.sendProgram
  split
  next n position hn =>
    have hlt : n < 134 := by rwa [hn] at hrange
    obtain ⟨-, hposition⟩ := (totalsOk_of_writing (filled := n) hn (by rw [hnone]; rfl)).mp htotals
    rw [fillUnit_eq (s := settledState left s) hposition]
    refine h.withCheckpoint hc (sendRun _ (settledState left s)) rfl rfl rfl rfl hlt nofun (fun data hdata => ?_)
      ((totalsOk_of_writing (filled := n + 1) rfl rfl).mpr ⟨rfl, rfl⟩) fun htarget => ?_
    · cases hdata
      exact streamUnit_length _ n
    · have haddr : unitAddr c.target n = c.target.base + (256 + 256 * n) := Nat.add_assoc ..
      refine .programming (offset := 256 + 256 * n) (by omega) (streamUnit_length (settledState left s) n) htarget ?_
      rw [← haddr]
      rfl
  next hn =>
    have hheader : (padUnit (sealHeader (settledState left s) c).bytes).length = 256 :=
      padUnit_length (by rw [ImageHeader.bytes_length]; omega)
    refine h.withCheckpoint hc (sendRun _ (settledState left s)) rfl rfl rfl rfl hrange nofun (fun data hdata => ?_)
      ((totalsOk_of_sealing hn).mpr ((totalsOk_of_sealing hn).mp htotals)) fun htarget => ?_
    · cases hdata
      exact hheader
    · exact .programming (offset := 0) (by omega) hheader htarget rfl
  next => exact h.settled left

/-- The end of a sector's erase (R153). -/
theorem ImageOk.eraseEnded (h : ImageOk s) {c : Checkpoint} (hc : s.image.checkpoint = some c) (left : Option (List Byte)) :
    ImageOk (eraseEnded c (settledState left s)) := by
  have hzero : ∀ {k}, c.stage = .erasing k → (c.records, c.bodyBytes) = (0, 0) := fun hk =>
    (totalsOk_of_erasing hk).mp (h.totals c hc)
  have hrecords : checkpointRecords (settledState left s) = checkpointRecords s := rfl
  refine eraseEnded_of (h.settled left) (fun k hk hlt => ?_) (fun k hk hnil => ?_) (fun k hk _ => ?_)
  · exact h.withCheckpoint hc (settledState left s) rfl rfl rfl rfl hlt nofun nofun ((totalsOk_of_erasing rfl).mpr (hzero hk))
      fun _ => .settled ..
  · refine h.withCheckpoint hc (settledState left s) rfl rfl rfl rfl trivial nofun nofun ((totalsOk_of_sealing rfl).mpr ?_)
      fun _ => .settled ..
    rw [hnil]
    exact hzero hk
  · refine h.withCheckpoint hc (settledState left s) rfl rfl rfl rfl (by decide : 0 < 134) nofun nofun
      ((totalsOk_of_writing (filled := 0) rfl rfl).mpr ?_) fun _ => .settled ..
    rw [Nat.mul_zero, placedWithin_zero]
    exact ⟨hzero hk, rfl⟩

end Sys2Proof.Machine
end

section
/-! SUPPORT. The image controller in order under the ends of checkpoints, the time base, the requests and every command;
the statement. -/

namespace Sys2Proof.Machine

variable {s t u : State} {p : Port}

/-! ### The rows of a checkpoint, continued -/

/-- A checkpoint has ended (R156). -/
theorem imageOk_endCheckpoint (r : ImageResult) (inReset : s.inReset = false) (device : s.image.device = .ready)
    (loader : s.image.loader = .idle) (sequence : s.image.current = none → s.image.sequence = 0#32)
    (run : RunOk s.flash s.image.current) : ImageOk (endCheckpoint r s) :=
  imageOk_atRest (s := endCheckpoint r s) inReset device loader rfl rfl sequence run

theorem ImageOk.endCheckpoint (h : ImageOk s) {c : Checkpoint} (hc : s.image.checkpoint = some c) (r : ImageResult) :
    ImageOk (endCheckpoint r s) := by
  obtain ⟨hr, hd, hl⟩ := h.ready_of_checkpoint hc
  exact imageOk_endCheckpoint r hr hd hl h.noCurrentNoSequence h.runOk

/-- A unit verified (R154, R155). -/
theorem ImageOk.unitVerified (h : ImageOk s) {c : Checkpoint} (hc : s.image.checkpoint = some c) {addr : Nat} {data : List Byte}
    (hop : s.image.op = .readback addr data) (hlength : streamLength (checkpointRecords s) ≤ 34240) : ImageOk (unitVerified c s) := by
  have hquiet : s.flash.running = none := h.readQuiet (by rw [hop]; rfl)
  have hsome : s.image.op.unitData? = some data := by rw [hop]; rfl
  have filled : ∀ {n position}, c.stage = .writing n position →
      (c.records, c.bodyBytes) = totalsOf (placedWithin (256 * (n + 1)) (checkpointRecords s))
        ∧ position = tagPast (placedWithin (256 * (n + 1)) (checkpointRecords s)) := fun {n position} hn =>
    (totalsOk_of_writing (filled := n + 1) hn (by rw [hsome]; rfl)).mp (h.totals c hc)
  refine unitVerified_of h (fun n position hn hlt => ?_) (fun n position hn hle => ?_) (fun hn => ?_)
  · exact h.withCheckpoint hc s rfl rfl rfl rfl (by omega : n + 1 < 134) nofun nofun
      ((totalsOk_of_writing (filled := n + 1) rfl rfl).mpr (filled hn)) fun _ => .of_none hquiet _
  · refine h.withCheckpoint hc s rfl rfl rfl rfl trivial nofun nofun ((totalsOk_of_sealing rfl).mpr ?_) fun _ => .of_none hquiet _
    obtain ⟨htotals, -⟩ := filled hn
    rwa [placedWithin_of_room hle] at htotals
  · obtain ⟨hr, hd, hl⟩ := h.ready_of_checkpoint hc
    exact imageOk_endCheckpoint (s := savedState c s) .saved hr hd hl nofun (.of_none hquiet _)

/-! ### The time base and device reset -/

theorem FlashOp.tick_facts (op : FlashOp) : op.tick.forCheckpoint = op.forCheckpoint ∧ op.tick.reading = op.reading
    ∧ op.tick.unitData? = op.unitData? ∧ (op.tick = .none ↔ op = .none) ∧ (op.tick = .loadRead ↔ op = .loadRead)
    ∧ ((∃ timer, op.tick = .poll .loadRead timer) ↔ ∃ timer, op = .poll .loadRead timer) := by
  cases op with
  | poll after timer =>
    cases after <;> simp [FlashOp.tick, FlashOp.forCheckpoint, FlashOp.reading, FlashOp.unitData?]
  | none | erase | program | readback | loadRead =>
    simp [FlashOp.tick, FlashOp.forCheckpoint, FlashOp.reading, FlashOp.unitData?]

theorem ImageOk.tickAll (h : ImageOk s) : ImageOk (tickAll s) := by
  unfold Machine.tickAll
  split
  next => exact h
  next hr =>
    obtain ⟨howner, hreading, hunit, hnone, hload, hpoll⟩ := s.image.op.tick_facts
    have hnot : s.inReset ≠ true := fun he => hr (by rw [he]; rfl)
    exact {
      inReset := fun he => absurd he hnot
      readyLoaded := h.readyLoaded
      loadingNoCheckpoint := h.loadingNoCheckpoint
      noCurrentNoSequence := h.noCurrentNoSequence
      target := h.target
      sector := h.sector
      unit := h.unit
      opOwner := howner ▸ h.opOwner
      opLoad := fun ho hc => h.opLoad (fun e => ho (hnone.mpr e)) (howner ▸ hc)
      readQuiet := hreading ▸ h.readQuiet
      loadQuiet := fun ho => h.loadQuiet (ho.imp_left hload.mp)
      headersOp := fun hl => (h.headersOp hl).imp (fun hh => ⟨hload.mpr hh.1, hh.2⟩) hpoll.mpr
      notYetInstalled := h.notYetInstalled
      entriesOp := fun c hc => by
        have := h.entriesOp c hc
        split at this
        next hlt =>
          rw [if_pos hlt]
          exact hnone.mpr this
        next hlt =>
          rw [if_neg hlt]
          exact this.imp hload.mpr hpoll.mpr
      runUnit := h.runUnit
      opUnit := fun data hdata => h.opUnit data (hunit ▸ hdata)
      totals := fun c hc => by
        have htotals := h.totals c hc
        unfold Image.totalsOk at htotals ⊢
        dsimp only
        rw [hunit]
        exact htotals
      runSpares := h.runSpares }

theorem ImageOk.deviceReset (h : ImageOk s) (cause : ResetCause) : ImageOk (deviceReset cause s) := by
  refine imageOk_deviceReset ?_ s.pending
  cases cause with
  | resetN => exact h.runUnit
  | power left => exact (RunOk.of_none (s.flash.cutOff_running left) none).unit

/-! ### Requests and PUBLISH -/

/-- What the controller's invariant rests on, with it. -/
structure Framed (s : State) : Prop extends Grounds s where
  pages : PagesOk s
  image : ImageOk s

theorem takesRequests_image : TakesRequests Framed where
  iface u p x h := by
    obtain ⟨hg, hp⟩ := takesRequests_pages.iface u p x ⟨h.toGrounds, h.pages⟩
    exact ⟨hg, hp, h.image.of_store rfl rfl rfl (fun _ hd => hd) fun _ _ => rfl⟩
  notes u n h := by
    obtain ⟨hg, hp⟩ := takesRequests_pages.notes u n ⟨h.toGrounds, h.pages⟩
    exact ⟨hg, hp, h.image.of_store rfl rfl rfl (fun _ hd => hd) fun _ _ => rfl⟩
  hold u p x hx h := by
    obtain ⟨hg, hp⟩ := takesRequests_pages.hold u p x hx ⟨h.toGrounds, h.pages⟩
    exact ⟨hg, hp, h.image.of_store rfl rfl rfl (fun _ hd => hd) fun _ _ => rfl⟩
  bind u p x hf hx h := by
    obtain ⟨hg, hp⟩ := takesRequests_pages.bind u p x hf hx ⟨h.toGrounds, h.pages⟩
    exact ⟨hg, hp, h.image.of_store rfl rfl rfl (fun _ hd => hd) fun _ _ => rfl⟩
  release u p x hx h := by
    obtain ⟨hg, hp⟩ := takesRequests_pages.release u p x hx ⟨h.toGrounds, h.pages⟩
    refine ⟨hg, hp, h.image.narrowed h.store hg.store.tagsRise (narrows_release h.store hx) rfl rfl rfl rfl
      (retireOnRelease_of_nil (s := u.setSnap p x))⟩
  txn u p hd r hr args complete h := by
    obtain ⟨hg, hp⟩ := takesRequests_pages.txn u p hd r hr args complete ⟨h.toGrounds, h.pages⟩
    have n := Narrows.takingOf_txn (p := p) h.pages h.memories hr complete
    obtain ⟨pool, queue, ctx, he⟩ := takingOf_txn_frame hr p args u
    refine ⟨hg, hp, ?_⟩
    rw [he] at n hg ⊢
    exact h.image.narrowed h.store hg.store.tagsRise n rfl rfl rfl rfl fun hdir => hdir
  resetTxn u p hd h := by
    obtain ⟨hg, hp⟩ := takesRequests_pages.resetTxn u p hd ⟨h.toGrounds, h.pages⟩
    have n := Narrows.resetTxn h.contexts p
    obtain ⟨pool, queue, ctx, he⟩ := resetTxn_frame p u
    refine ⟨hg, hp, ?_⟩
    rw [he] at n hg ⊢
    exact h.image.narrowed h.store hg.store.tagsRise n rfl rfl rfl rfl fun hdir => hdir
  checkpoint u hd hn hq h := by
    obtain ⟨hg, hp⟩ := takesRequests_pages.checkpoint u hd hn hq ⟨h.toGrounds, h.pages⟩
    refine ⟨hg, hp, imageOk_checkpointing (c := ⟨.erasing 0, checkpointTarget u, 0, 0⟩) (h.image.not_inReset_of_ready hd) hd
      (h.image.readyLoaded hd) rfl rfl h.image.noCurrentNoSequence (fun i hi => ?_) (by decide : 0 < 16) nofun nofun
      ((totalsOk_of_erasing rfl).mpr rfl) h.image.runOk⟩
    have hi : u.image.current = some i := hi
    simp only [checkpointTarget, hi]
    cases i <;> rfl
  cancel u c hd hk hs h := by
    obtain ⟨hg, hp⟩ := takesRequests_pages.cancel u c hd hk hs ⟨h.toGrounds, h.pages⟩
    exact ⟨hg, hp, h.image.endCheckpoint hk _⟩

theorem ImageOk.publishCommit (h : ImageOk s) (hst : StoreOk s) (hc : ContextsOk s) {c : Commit} (he : s.engine = .digesting c) :
    ImageOk (publishCommit c s) := by
  have views := ViewsKept.publishCommit hst hc he
  have hst' := hst.publishCommit hc he
  obtain ⟨notes, heq⟩ := publishCommit_eq c s
  rw [heq] at views hst' ⊢
  refine h.of_store rfl rfl rfl (fun hd => ?_) fun _ hk => checkpointRecords_of_views hst hst'.tagsRise rfl views hk
  obtain ⟨hidle, -⟩ := hc.quiet hd
  rw [he] at hidle
  cases hidle

/-! ### Every command -/

/-- Every command keeps the image controller in order. -/
theorem ImageOk.exec (h : Coherent s) {c : Instr} (hexec : exec c s = .next t) : ImageOk t := by
  have hstream := h.streamLength_le (checkpointGen s)
  obtain ⟨-, hm, -, hcontexts, hst, hpages, himage⟩ := h
  have grounds : Grounds s := ⟨hm, hcontexts, hst⟩
  have both : ∀ {i : Instr} {u : State}, Machine.exec i s = .next u → ImageOk u → Framed u := fun hi hu =>
    ⟨grounds.exec himage hi, hpages.exec grounds himage hi, hu⟩
  have same : ∀ {u : State}, u.inReset = s.inReset → u.image = s.image → u.flash = s.flash → u.directory = s.directory →
      u.slot4 = s.slot4 → ImageOk u := fun hr hi hf hd hs =>
    himage.of_store hr hi (by rw [hf]) (fun _ => hd.trans) fun _ _ => by
      simp only [checkpointRecords, checkpointGen, hd, hs]
  have checkpoint_of : s.image.op.forCheckpoint = true → ∃ c, s.image.checkpoint = some c := fun ho =>
    Option.isSome_iff_exists.mp (himage.opOwner.mp ho)
  have quiet_of : ∀ c, s.image.loader = .checking c ∨ s.image.loader = .installing c → s.flash.running = none := fun c hl =>
    himage.loadQuiet (.inr (.inr ⟨c, hl⟩))
  have busy_of : ∀ {l}, s.image.loader = l → l ≠ .idle → s.image.loader ≠ .idle := fun hl hne => hl ▸ hne
  have ended : ∀ {r current sequence}, s.image.loader ≠ .idle → (current = none → sequence = 0#32) → s.flash.running = none →
      ∀ {u : State}, u.inReset = s.inReset → u.image = s.image → u.flash = s.flash → ImageOk (endLoad r current sequence u) := by
    intro r current sequence hl hseq hq u hr hi hf
    obtain ⟨hr', -, hc', -, -⟩ := himage.loading hl
    exact imageOk_endLoad (hr.trans hr') (by rw [hi]; exact hc') hseq (.of_none (by rw [hf]; exact hq) _)
  refine (takesRequests_image.exec ⟨grounds, hpages, himage⟩ ?tick ?idleExpiry ?take ?digest ?publish ?reset ?resetEnd ?pollReady
    ?pollTimeout ?eraseDone ?eraseExpiry ?programDone ?programExpiry ?readback ?headers ?checked ?installed hexec).image
  case tick => exact both (i := .tick) rfl himage.tickAll
  case idleExpiry =>
    exact fun p => both (i := .idleTimerExpiry p) rfl (expireIdle_of himage fun _ _ => same rfl rfl rfl rfl rfl)
  case take =>
    exact both (i := .take) rfl (takeHead_of himage (fun _ _ _ _ _ _ => same rfl rfl rfl rfl rfl)
      (fun _ _ _ _ _ => same rfl rfl rfl rfl rfl))
  case digest => exact both (i := .pageDigested) rfl (digestPage_of himage fun _ _ => same rfl rfl rfl rfl rfl)
  case publish => exact both (i := .publish) rfl (publishHead_of himage fun _ he _ => himage.publishCommit hst hcontexts he)
  case reset => exact fun cause _ => both (i := .deviceReset cause) rfl (himage.deviceReset cause)
  case resetEnd => exact fun adr priv => both (i := .deviceResetEnd adr priv) rfl (himage.deviceResetEnd adr priv)
  case pollReady =>
    refine fun left => both (i := .statusPollReady left) rfl (pollReady_of himage (fun _ hop => himage.sendLoadRead hop left)
      (fun addr data timer hop => ?_) (fun _ _ _ hc => himage.sendErase hc left)
      (fun _ _ hop hc => himage.sendProgram hc hop left))
    obtain ⟨c, hc⟩ := checkpoint_of (by rw [hop]; rfl)
    exact himage.withOp hc left rfl (by rw [hop]; rfl)
  case pollTimeout =>
    refine both (i := .statusPollTimeout) rfl (pollTimeout_of himage (fun _ _ hl => ?_) (fun _ _ _ _ _ hc => himage.endCheckpoint hc _))
    obtain ⟨hr, -, hc, -, -⟩ := himage.loading (by rw [hl]; nofun)
    exact imageOk_endLoad hr hc (fun _ => rfl) ⟨himage.runUnit, nofun⟩
  case eraseDone =>
    exact fun left => both (i := .eraseDone left) rfl (eraseDone_of himage fun _ _ _ _ hc => himage.eraseEnded hc left)
  case eraseExpiry =>
    refine both (i := .eraseTimerExpiry) rfl (expireErase_of himage fun _ _ hop => ?_)
    obtain ⟨c, hc⟩ := checkpoint_of (by rw [hop]; rfl)
    exact himage.endCheckpoint hc _
  case programDone =>
    refine fun left => both (i := .programDone left) rfl (programDone_of himage fun _ _ _ hop => ?_)
    obtain ⟨c, hc⟩ := checkpoint_of (by rw [hop]; rfl)
    exact himage.withOp hc left rfl (by rw [hop]; rfl)
  case programExpiry =>
    refine both (i := .programTimerExpiry) rfl (expireProgram_of himage fun _ _ _ hop => ?_)
    obtain ⟨c, hc⟩ := checkpoint_of (by rw [hop]; rfl)
    exact himage.endCheckpoint hc _
  case readback =>
    exact fun received => both (i := .readbackDone received) rfl (readbackDone_of himage
      (fun _ _ _ hop hc => himage.unitVerified hc hop hstream) (fun _ _ _ _ hc => himage.endCheckpoint hc _))
  case headers =>
    have quiet : s.image.loader = .header1 → s.flash.running = none := fun hl => himage.loadQuiet (.inr (.inl hl))
    exact both (i := .loadHeadersRead) rfl (headersRead_of himage
      (fun hl _ => ended (busy_of hl nofun) (fun _ => rfl) (quiet hl) rfl rfl rfl)
      (fun hl _ => himage.trySlots (busy_of hl nofun) (quiet hl) (himage.notYetInstalled (.inr (.inl hl)))))
  case checked =>
    exact both (i := .loadEntryChecked) rfl (entryChecked_of himage
      (fun c hl _ => himage.trySlots (busy_of hl nofun) (quiet_of c (.inl hl)) (himage.notYetInstalled (.inr (.inr ⟨c, hl⟩))))
      (fun c e hl _ _ => himage.atEntry (c := c.pass e) (busy_of hl nofun) (quiet_of c (.inl hl)) rfl rfl (.inl rfl) rfl
        fun _ => himage.notYetInstalled (.inr (.inr ⟨c, hl⟩)))
      (fun c hl _ => himage.atEntry (c := firstEntry c.slot c.header c.others) (busy_of hl nofun) (quiet_of c (.inl hl)) rfl rfl
        (.inr rfl) rfl nofun))
  case installed =>
    refine both (i := .loadEntryInstalled) rfl (entryInstalled_of himage
      (fun c hl _ => ended (current := some c.slot) (busy_of hl nofun) nofun (quiet_of c (.inr hl)) rfl rfl rfl)
      (fun c e u hl _ _ hu => ?_) (fun c e u hl _ _ hu => ?_))
    all_goals obtain ⟨-, -, -, content, pool, -, rfl⟩ := installEntry_inv hu
    · exact himage.atEntry (c := c.pass e) (busy_of hl nofun) (quiet_of c (.inr hl)) rfl rfl (.inr rfl) rfl nofun
    · exact ended (current := some c.slot) (busy_of hl nofun) nofun (quiet_of c (.inr hl)) rfl rfl rfl

/-- Settles O10: the controller is at rest, with a checkpoint or with a load, and each row leads from one to another. -/
theorem imageControllerStaysInOrder : Obligations.ImageControllerStaysInOrder := by
  intro s t h hstep
  rcases step_cases hstep with rfl | ⟨c, rest, -, hc⟩
  · exact h.image
  · refine ImageOk.exec (s := { s with pending := rest }) ?_ hc
    exact ⟨h.notes.of_notes rfl, h.memories.of_eq rfl rfl, h.ports.of_eq rfl rfl, h.contexts.of_eq rfl rfl rfl rfl rfl,
      h.store.of_eq rfl rfl rfl rfl rfl rfl rfl, h.pages.of_store rfl rfl rfl rfl, { h.image with }⟩

end Sys2Proof.Machine
end

section
/-! SUPPORT. What a publish tells the ports, and the pages that it loses. -/

namespace Sys2Proof.Machine

variable {s t : State} {p : Port}

/-! ### Notification at a publish (R114, R115) -/

theorem Notify.arrive_watches (n : Notify) (e : Event) : (n.arrive e).watches = n.watches := by
  unfold Notify.arrive
  split
  · rfl
  · split <;> rfl

/-- The record events of a publish reach each port that watches their tags, in intent-list order. -/
theorem deliverRecordEvents_notes (intents : List Intent) (s : State) (q : Port) :
    (intents.foldl (fun t i => deliverRecordEvent (recordEvent t.g i) t) s).notes.get q
      = ((intents.filter (fun i => decide (i.tag ∈ (s.notes.get q).watches))).map (recordEvent s.g)).foldl
          Notify.arrive (s.notes.get q) := by
  induction intents generalizing s with
  | nil => rfl
  | cons i rest ih =>
    have hnote : (deliverRecordEvent (recordEvent s.g i) s).notes.get q
        = if i.tag ∈ (s.notes.get q).watches then (s.notes.get q).arrive (recordEvent s.g i) else s.notes.get q :=
      PortMap.get_mapPorts ..
    have hwatches : ((deliverRecordEvent (recordEvent s.g i) s).notes.get q).watches = (s.notes.get q).watches := by
      rw [hnote]
      split
      · exact Notify.arrive_watches ..
      · rfl
    rw [List.foldl_cons, ih, hwatches, hnote, List.filter_cons]
    by_cases hi : i.tag ∈ (s.notes.get q).watches
    · simp only [hi, decide_true, if_true, List.map_cons, List.foldl_cons]
      rfl
    · simp only [hi, decide_false, if_false]
      rfl

/-- What a port is told of the end of a commit before the record events (R114). -/
def toldOf (c : Commit) (s : State) (q : Port) : Notify :=
  if q = c.port ∧ (s.txns.get c.port).state = .applying then
    ((s.notes.get q).arrive ⟨.commitDone, 0x0000#16, s.g + 1#32, .outcome .committed⟩).raise flagTxnEnded
  else s.notes.get q

theorem toldOf_watches (c : Commit) (s : State) (q : Port) : (toldOf c s q).watches = (s.notes.get q).watches := by
  unfold toldOf
  split
  · exact Notify.arrive_watches ..
  · rfl

theorem endCommitter_notes (c : Commit) (s : State) (q : Port) :
    (endCommitter c.port (publishedState c s)).notes.get q = toldOf c s q := by
  have htxns : (publishedState c s).txns = s.txns := rfl
  have hnotes : (publishedState c s).notes = s.notes := rfl
  simp only [endCommitter, htxns]
  split
  next hs =>
    by_cases hq : q = c.port
    · subst hq
      rw [toldOf, if_pos ⟨rfl, hs⟩]
      exact PortMap.get_set_self ..
    · rw [toldOf, if_neg fun h => hq h.1]
      exact PortMap.get_set_of_ne _ _ hq
  all_goals
    next hs =>
      rw [toldOf, if_neg fun h => ?_, hnotes]
      have hs := hs.symm.trans h.2
      cases hs

theorem publishCommit_notes (c : Commit) (s : State) (q : Port) : (publishCommit c s).notes.get q
    = (((s.txns.get c.port).intents.filter (fun i => decide (i.tag ∈ (s.notes.get q).watches))).map
        (fun i => Event.mk i.op.eventKind i.tag (s.g + 1#32) .zero)).foldl Notify.arrive (toldOf c s q) := by
  have hinstalled : (s.txns.get c.port).intents.foldl (installIntent c.port c.done) { s with g := s.g + 1#32 }
      = installedState c s := installIntents_eq ..
  have hfold : (publishCommit c s).notes.get q = ((s.txns.get c.port).intents.foldl
      (fun t i => deliverRecordEvent (recordEvent t.g i) t) (endCommitter c.port (publishedState c s))).notes.get q := by
    rw [publishCommit]
    dsimp only
    rw [hinstalled]
    rfl
  obtain ⟨told, htold⟩ := endCommitter_eq c.port (publishedState c s)
  have hg : (endCommitter c.port (publishedState c s)).g = s.g + 1#32 := by
    rw [htold]
    rfl
  rw [hfold, deliverRecordEvents_notes, endCommitter_notes, toldOf_watches, hg]
  rfl

/-! ### The pages lost (R21, R14) -/

/-- The lists of a directory's slots, by tag: a slot that is added is passed over when its tag has no list. -/
theorem flatMap_install {α : Type} (lists : Tag → List α) {dir : List DirSlot} {tag : Tag}
    (hdir : (dir.map DirSlot.tag).Pairwise (· < ·)) (hnew : (∀ d ∈ dir, d.tag ≠ tag) → lists tag = []) (v : Version) :
    (install dir tag v).flatMap (fun d => lists d.tag) = dir.flatMap (fun d => lists d.tag) := by
  induction dir with
  | nil => simp [install, hnew]
  | cons d rest ih =>
    obtain ⟨hlt, hrest⟩ := List.pairwise_cons.mp hdir
    rw [install]
    split
    next hbefore =>
      have hempty : lists tag = [] := hnew fun x hx e => by
        subst e
        rcases List.mem_cons.mp hx with rfl | hx
        · exact BitVec.lt_irrefl _ hbefore
        · exact BitVec.lt_irrefl _ (BitVec.lt_trans hbefore (hlt _ (List.mem_map_of_mem hx)))
      rw [List.flatMap_cons, hempty, List.nil_append]
    next =>
      split
      next => simp only [List.flatMap_cons]
      next hne =>
        rw [List.flatMap_cons, List.flatMap_cons, ih hrest fun hn => hnew fun x hx => ?_]
        rcases List.mem_cons.mp hx with rfl | hx
        · exact Ne.symm hne
        · exact hn x hx

/-- An installation keeps the tags of the directory. -/
theorem exists_slot_install {dir : List DirSlot} {d : DirSlot} (hd : d ∈ dir) (tag : Tag) (v : Version) :
    ∃ d' ∈ install dir tag v, d'.tag = d.tag := by
  induction dir with
  | nil => cases hd
  | cons x rest ih =>
    rw [install]
    split
    · exact ⟨d, List.mem_cons_of_mem _ hd, rfl⟩
    · split
      · rcases List.mem_cons.mp hd with rfl | hd
        · exact ⟨_, List.mem_cons_self, rfl⟩
        · exact ⟨d, List.mem_cons_of_mem _ hd, rfl⟩
      · rcases List.mem_cons.mp hd with rfl | hd
        · exact ⟨d, List.mem_cons_self, rfl⟩
        · obtain ⟨d', hd', ht⟩ := ih hd
          exact ⟨d', List.mem_cons_of_mem _ hd', ht⟩

theorem flatMap_installAll {α : Type} (lists : Tag → List α) {gen : Gen} {done : List (Tag × Crc)} {dir : List DirSlot}
    {intents : List Intent} (hdir : (dir.map DirSlot.tag).Pairwise (· < ·))
    (hnew : ∀ tag, (∀ d ∈ dir, d.tag ≠ tag) → lists tag = []) :
    (installAll gen done dir intents).flatMap (fun d => lists d.tag) = dir.flatMap (fun d => lists d.tag) := by
  induction intents generalizing dir with
  | nil => rfl
  | cons i rest ih =>
    rw [installAll_cons, ih (install_tagsRise hdir) fun tag hn => hnew tag fun d hd ht => ?_, flatMap_install lists hdir (hnew i.tag)]
    obtain ⟨d', hd', ht'⟩ := exists_slot_install hd i.tag ⟨gen, installedContent dir done i⟩
    exact hn d' hd' (ht'.trans ht)

end Sys2Proof.Machine
end

section
/-! SUPPORT. The store that a publish leaves: chains, views and pages; the statement about PUBLISH. -/

namespace Sys2Proof.Machine

variable {s t : State} {p : Port} {c : Commit}

/-- The lists of a commit handed over: its port owns no staged page, and nothing else has changed (R34). -/
theorem handOverAll_eq (hp : PagesOk s) (p : Port) :
    handOverAll p s.pool (s.txns.get p).intents = { s.pool with stagedOwned := s.pool.stagedOwned.set p 0 } := by
  obtain ⟨hbytes, hrefs, hfree, hown, hrest⟩ := handOverAll_fields p (s.txns.get p).intents s.pool
  have howned : (handOverAll p s.pool (s.txns.get p).intents).stagedOwned = s.pool.stagedOwned.set p 0 := by
    refine PortMap.ext_get fun q => ?_
    by_cases hq : q = p
    · subst hq
      rw [hown, hp.stagedOwned_eq, Nat.sub_self, PortMap.get_set_self]
    · rw [hrest q hq, PortMap.get_set_of_ne _ _ hq]
  exact Pool.ext hbytes hrefs hfree howned

/-! ### Chains (R110, R21) -/

/-- The version that an intent of the commit installs. -/
def newVersion (c : Commit) (s : State) (i : Intent) : Version := ⟨s.g + 1#32, installedContent s.directory c.done i⟩

/-- No holding snapshot lies in the window that a publish closes (R21). -/
def unseen (s : State) (prev : Version) : Bool := !(holdingGens s).any (fun g => decide (prev.gen ≤ g ∧ g < s.g + 1#32))

theorem unseen_eq (c : Commit) (s : State) (i : Intent) (prev : Version) :
    unseen s prev = !windowSeen (holdingGens s) (newVersion c s i, prev) := rfl

/-- What a publish loses of the pages of a tag's record. -/
def lostPages (s : State) (changed : List Tag) (tag : Tag) : List PageNo :=
  match chainOf s.directory tag with
  | [] => []
  | prev :: _ => if tag ∈ changed ∧ unseen s prev = true then prev.pages else []

theorem lostPages_of_nil {changed : List Tag} {tag : Tag} (h : chainOf s.directory tag = []) : lostPages s changed tag = [] := by
  simp only [lostPages, h]

theorem lostPages_of_cons {changed : List Tag} {tag : Tag} {prev : Version} {older : List Version}
    (h : chainOf s.directory tag = prev :: older) :
    lostPages s changed tag = if tag ∈ changed ∧ unseen s prev = true then prev.pages else [] := by
  simp only [lostPages, h]

/-- The chain of a changed tag before the retirement of a publish. -/
theorem chainOf_installedState (hst : StoreOk s) (hc : ContextsOk s) {i : Intent} (hi : i ∈ (s.txns.get c.port).intents) :
    chainOf (installedState c s).directory i.tag = newVersion c s i :: chainOf s.directory i.tag :=
  chainOf_installAll hst.tagsRise (hc.contexts c.port).tagsDiffer hi

/-- An intent on a tag with no chain creates. -/
theorem newVersion_live_of_nil (hst : StoreOk s) (he : s.engine = .digesting c) {i : Intent}
    (hi : i ∈ (s.txns.get c.port).intents) (hn : chainOf s.directory i.tag = []) :
    (newVersion c s i).isTombstone = false := by
  have hpass := (hst.unswept.promised c he).passes i hi
  refine Bool.eq_false_iff.mpr fun ht => ?_
  obtain ⟨base, hop⟩ := (installedContent_isTombstone ..).mp ht
  simp [passesTake, hop, hn] at hpass

section
variable (hst : StoreOk s) (hc : ContextsOk s) (he : s.engine = .digesting c)
include hst hc he

/-- Only the check of its slot decides a tag's chain after a publish. -/
theorem chainOf_published {tag : Tag} {chain : List Version} (hne : chain ≠ [])
    (h : chainOf (installedState c s).directory tag = chain) :
    chainOf (publishedState c s).directory tag
      = (publishCheck (holdingGens s) ((s.txns.get c.port).intents.map Intent.tag) ⟨tag, chain⟩).1 := by
  have hdir := hst.installedState hc he
  have hr := publishCheck_retires_installed hst hc he (holdingGens s) ((s.txns.get c.port).intents.map Intent.tag)
  rcases chainOf_retireBy_retires hdir hr tag with ⟨hn, -⟩ | ⟨d, -, rfl, hcd, hcd', -⟩
  · exact absurd (h.symm.trans hn) hne
  · rw [← h, hcd]
    exact hcd'

theorem chainOf_published_of_unchanged {tag : Tag} (ht : tag ∉ (s.txns.get c.port).intents.map Intent.tag) :
    chainOf (publishedState c s).directory tag = chainOf s.directory tag := by
  have hdir := hst.installedState hc he
  have hr := publishCheck_retires_installed hst hc he (holdingGens s) ((s.txns.get c.port).intents.map Intent.tag)
  have hsame : chainOf (installedState c s).directory tag = chainOf s.directory tag := chainOf_installAll_of_not_mem ht
  by_cases hn : chainOf s.directory tag = []
  · have hnone := chainOf_retireBy_sublist hdir hr tag
    rw [hsame, hn] at hnone
    exact (List.sublist_nil.mp hnone).trans hn.symm
  · rw [chainOf_published hst hc he hn hsame, publishCheck_of_unchanged _ ht]

theorem chainOf_published_of_nil {i : Intent} (hi : i ∈ (s.txns.get c.port).intents) (hn : chainOf s.directory i.tag = []) :
    chainOf (publishedState c s).directory i.tag = [newVersion c s i] := by
  have hchain := chainOf_installedState hst hc hi
  rw [hn] at hchain
  rw [chainOf_published hst hc he (List.cons_ne_nil _ _) hchain,
    publishCheck_of_single (d := ⟨i.tag, [newVersion c s i]⟩) _ (List.mem_map_of_mem (f := Intent.tag) hi) rfl,
    retireLoneTombstone_eq,
    if_neg fun h => ?_]
  rw [newVersion_live_of_nil hst he hi hn] at h
  cases h.2

theorem chainOf_published_of_cons {i : Intent} (hi : i ∈ (s.txns.get c.port).intents) {prev : Version} {older : List Version}
    (hold : chainOf s.directory i.tag = prev :: older) : chainOf (publishedState c s).directory i.tag
      = if unseen s prev = true then
          (if older = [] ∧ (newVersion c s i).isTombstone = true then [] else newVersion c s i :: older)
        else newVersion c s i :: prev :: older := by
  have hchain := chainOf_installedState hst hc hi
  rw [hold] at hchain
  rw [chainOf_published hst hc he (List.cons_ne_nil _ _) hchain,
    publishCheck_of_pair (d := ⟨i.tag, newVersion c s i :: prev :: older⟩) _ (List.mem_map_of_mem (f := Intent.tag) hi) rfl,
    unseen_eq c s i prev]
  cases windowSeen (holdingGens s) (newVersion c s i, prev) with
  | true => rfl
  | false =>
    rw [retireLoneTombstone_eq]
    simp only [Bool.not_false, if_true, Bool.false_eq_true, if_false]
    split <;> rfl

/-- A version that was installed is what the new generation sees, unless it is a tombstone. -/
theorem visible_published {i : Intent} (hi : i ∈ (s.txns.get c.port).intents) :
    visible (publishedState c s).directory i.tag (s.g + 1#32)
      = if (newVersion c s i).isTombstone = true then none else some (newVersion c s i) := by
  have hnew : ∀ older, visibleAt (newVersion c s i :: older) (s.g + 1#32)
      = if (newVersion c s i).isTombstone = true then none else some (newVersion c s i) := fun older => by
    have hv : versionAt (newVersion c s i :: older) (s.g + 1#32) = some (newVersion c s i) := by
      simp [versionAt, newVersion]
    rw [visibleAt, hv]
  rw [visible]
  cases hold : chainOf s.directory i.tag with
  | nil => rw [chainOf_published_of_nil hst hc he hi hold, hnew]
  | cons prev older =>
    rw [chainOf_published_of_cons hst hc he hi hold]
    split
    · split
      next h => exact (if_pos h.2).symm
      next => exact hnew older
    · exact hnew _

/-! ### Pages (R21, R34) -/

/-- What the check of a slot loses at a publish. -/
theorem publishCheck_lost {d : DirSlot} (hd : d ∈ (installedState c s).directory) :
    (publishCheck (holdingGens s) ((s.txns.get c.port).intents.map Intent.tag) d).2.flatMap Version.pages
      = lostPages s ((s.txns.get c.port).intents.map Intent.tag) d.tag := by
  have hchain := (hst.installedState hc he).chainOf hd
  by_cases ht : d.tag ∈ (s.txns.get c.port).intents.map Intent.tag
  · obtain ⟨i, hi, htag⟩ := List.mem_map.mp ht
    have hinstalled := chainOf_installedState hst hc hi
    rw [htag, hchain] at hinstalled
    cases hold : chainOf s.directory d.tag with
    | nil =>
      rw [hold] at hinstalled
      rw [publishCheck_of_single _ ht hinstalled, retireLoneTombstone_pages, lostPages_of_nil hold]
      rfl
    | cons prev older =>
      rw [hold] at hinstalled
      rw [publishCheck_of_pair _ ht hinstalled, lostPages_of_cons hold, unseen_eq c s i prev]
      cases windowSeen (holdingGens s) (newVersion c s i, prev) with
      | true => simp
      | false => simp [ht, retireLoneTombstone_pages]
  · rw [publishCheck_of_unchanged _ ht]
    cases hold : chainOf s.directory d.tag with
    | nil => exact (lostPages_of_nil hold).symm
    | cons prev older => rw [lostPages_of_cons hold, if_neg fun h => ht h.1, List.flatMap_nil]

/-- The pool after a publish: the staged lists handed over, then the pages of the versions that go, in tag order. -/
theorem publishedState_pool (hp : PagesOk s) : (publishedState c s).pool
    = { s.pool with stagedOwned := s.pool.stagedOwned.set c.port 0 }.loseAll
        (s.directory.flatMap (fun d : DirSlot => lostPages s ((s.txns.get c.port).intents.map Intent.tag) d.tag)) := by
  have hlost : (installedState c s).directory.flatMap
      (fun d : DirSlot => (publishCheck (holdingGens s) ((s.txns.get c.port).intents.map Intent.tag) d).2.flatMap Version.pages)
      = s.directory.flatMap (fun d : DirSlot => lostPages s ((s.txns.get c.port).intents.map Intent.tag) d.tag) :=
    (List.flatMap_congr fun _ hd => publishCheck_lost hst hc he hd).trans
      (flatMap_installAll _ hst.tagsRise fun tag hn => lostPages_of_nil (chainOf_of_not_mem hn))
  rw [publishedState, retireOnPublish, retireBy_pool, ← handOverAll_eq hp, ← hlost]
  rfl

end

/-- Settles O47: the installed chains, each through the check of its slot, and the notes port by port. -/
theorem publishInstallsAndTells : Obligations.PublishInstallsAndTells := by
  intro s c h he htodo ctx unseenHere lost told
  have hst := h.store
  have hc := h.contexts
  have hexec : exec .publish s = .next (publishCommit c s) := by
    have : publishHead s = publishCommit c s := by simp [publishHead, he, htodo]
    exact congrArg Host.Outcome.next this
  have hnotes := publishCommit_notes c s
  obtain ⟨notes, heq⟩ := publishCommit_eq c s
  rw [heq] at hexec hnotes
  have htaken := (hc.committer c.port).mpr (by rw [he]; rfl)
  have houtcome : committerOutcome ctx (s.g + 1#32) = if ctx.state = .applying then .committed (s.g + 1#32) else .none := by
    unfold committerOutcome
    split
    · rfl
    · refine (hc.contexts c.port).noOutcome fun hn => ?_
      rw [hn] at htaken
      rcases htaken with ht | ht <;> cases ht
  have hpool : (publishedState c s).pool = { s.pool with stagedOwned := s.pool.stagedOwned.set c.port 0 }.loseAll lost := by
    rw [publishedState_pool hst hc he h.pages]
    refine congrArg _ (List.flatMap_congr fun d hd => ?_)
    have hchain := hst.dirOk.chainOf hd
    split
    next hd' => exact lostPages_of_nil (hchain.trans hd')
    next hd' => exact lostPages_of_cons (hchain.trans hd')
  have howned : (publishedState c s).pool.stagedOwned = s.pool.stagedOwned.set c.port 0 := by
    rw [hpool, Pool.loseAll_stagedOwned]
  refine ⟨_, hexec, rfl, rfl, ?_, fun i hi => ?_, fun tag hn => ?_, fun i hi => ?_, hpool, ?_, hnotes, fun q hq => ⟨?_, ?_⟩, rfl⟩
  · rw [State.setTxn_txns, PortMap.get_set_self, ← houtcome]
  · refine (visible_published hst hc he hi).trans ?_
    by_cases ht : (newVersion c s i).isTombstone = true
    · obtain ⟨base, hop⟩ := (installedContent_isTombstone ..).mp ht
      rw [if_pos ht, hop]
    · rw [if_neg ht]
      split
      next base hop => exact absurd ((installedContent_isTombstone ..).mpr ⟨base, hop⟩) ht
      all_goals rfl
  · refine chainOf_published_of_unchanged hst hc he fun ht => ?_
    obtain ⟨i, hi, he⟩ := List.mem_map.mp ht
    exact hn i hi he
  · intro new
    split
    next hold => exact chainOf_published_of_nil hst hc he hi hold
    next prev older hold => exact chainOf_published_of_cons hst hc he hi hold
  · show (publishedState c s).pool.stagedOwned.get c.port = 0
    rw [howned, PortMap.get_set_self]
  · rw [State.setTxn_txns, PortMap.get_set_of_ne _ _ hq]
  · show (publishedState c s).pool.stagedOwned.get q = _
    rw [howned, PortMap.get_set_of_ne _ _ hq]

end Sys2Proof.Machine
end
